-- ==== Sys2Proof/Word.lean ====
section
/-! DEFINITION. The plain data the whole model is written over: the byte of the three formatted links, the eight-way
index that names machine ports M0 to M7 and cue lines G0 to G7 ("Fixed Numbers" of spec/00_scope.md), and a bank of
eight like things read and written by that index. -/

namespace Sys2Proof

/-- One byte of a console message, or one character of a deck-link frame (R72, R195). -/
abbrev Byte := BitVec 8

/-- The names of eight like units: the machine ports M0 to M7, and the cue lines G0 to G7. -/
inductive Unit8 where
  | u0 | u1 | u2 | u3 | u4 | u5 | u6 | u7
deriving DecidableEq, Repr

/-- A tape machine, named by its port, M0 to M7. -/
abbrev MachineId := Unit8

/-- A cue line, G0 to G7. -/
abbrev CueLineId := Unit8

/-- The eight units in ascending order. -/
def Unit8.all : List Unit8 := [.u0, .u1, .u2, .u3, .u4, .u5, .u6, .u7]

/-- The number of a unit, 0 to 7. -/
def Unit8.toNat : Unit8 → Nat
  | .u0 => 0 | .u1 => 1 | .u2 => 2 | .u3 => 3 | .u4 => 4 | .u5 => 5 | .u6 => 6 | .u7 => 7

/-- The unit a number names; a number above 7 names none. -/
def Unit8.ofNat? : Nat → Option Unit8
  | 0 => some .u0 | 1 => some .u1 | 2 => some .u2 | 3 => some .u3
  | 4 => some .u4 | 5 => some .u5 | 6 => some .u6 | 7 => some .u7
  | _ => none

/-- Eight like things, one for each unit. -/
structure Bank (α : Type) where
  b0 : α
  b1 : α
  b2 : α
  b3 : α
  b4 : α
  b5 : α
  b6 : α
  b7 : α
deriving DecidableEq, Repr

/-- The thing that belongs to a unit. -/
def Bank.get {α : Type} (b : Bank α) : Unit8 → α
  | .u0 => b.b0 | .u1 => b.b1 | .u2 => b.b2 | .u3 => b.b3
  | .u4 => b.b4 | .u5 => b.b5 | .u6 => b.b6 | .u7 => b.b7

/-- The bank with one unit's thing replaced. -/
def Bank.set {α : Type} (b : Bank α) (i : Unit8) (x : α) : Bank α :=
  match i with
  | .u0 => { b with b0 := x } | .u1 => { b with b1 := x } | .u2 => { b with b2 := x } | .u3 => { b with b3 := x }
  | .u4 => { b with b4 := x } | .u5 => { b with b5 := x } | .u6 => { b with b6 := x } | .u7 => { b with b7 := x }

/-- Every unit's thing changed by one function. -/
def Bank.map {α : Type} (f : α → α) (b : Bank α) : Bank α :=
  ⟨f b.b0, f b.b1, f b.b2, f b.b3, f b.b4, f b.b5, f b.b6, f b.b7⟩

/-- The same thing for every unit. -/
def Bank.fill {α : Type} (x : α) : Bank α := ⟨x, x, x, x, x, x, x, x⟩

end Sys2Proof
end

