-- ==== Sys2Proof/Syntax.lean ====
section
/-! DEFINITION. The commands of the part: one constructor for each row of spec/opcode_table.json, in the table's order.
A row that is an event of the outside (a pulse, a character, a transfer) carries what the outside brings. A row that is a
step of the part itself (a block taking the field start, the Request Handler taking a request) carries only what says
which unit takes it: the rest stands in the state (log entries 1 to 4). -/

namespace Sys2Proof

/-- The field of a frame, as a pulse's field identification and as a field start's parity (R4). -/
inductive Parity where
  | field1
  | field2
deriving DecidableEq, Repr

/-- A block that acts on a field start on its own state (R20). The Machine Controller deals with a field start machine
by machine ("for every configured machine on that machine's own record", opening of spec/05), so each machine is named. -/
inductive Receiver where
  | port (m : MachineId)
  | machine (m : MachineId)
  | run
  | cue
  | effects
deriving DecidableEq, Repr

/-- A block to which the Cue Unit reports a change of the STOP input (R175 step 5). -/
inductive StopReport where
  | machineController
  | runController
  | effectsGenerator
deriving DecidableEq, Repr

/-- The three kinds of fault that count against a port (R80). A CHECK failure carries the reply characters that had not
yet arrived, the failing one last, and whether that one has a parity or stop fault (R76). -/
inductive PortError where
  | timeout
  | check (chars : List Byte) (faulty : Bool)
  | unsolicited
deriving DecidableEq, Repr

/-- What unlocks a LOCKED machine (R114): a STATUS with its characters, or the stale count at a field start. -/
inductive UnlockCause where
  | status (chars : List Byte)
  | stale
deriving DecidableEq, Repr

/-- The commands. -/
inductive Instr where
  -- resets and the Timeline Unit
  | fullReset
  | resetRelease
  /-- `takers`: the blocks that take the field start within this step, in order; the others take it later. -/
  | internalFieldTick (takers : List Receiver)
  /-- `elapsed`: time since the last timed event, in units of 1/240,000 s. -/
  | referencePulse (elapsed : Nat) (fieldId : Parity) (takers : List Receiver)
  | gapExpiry
  | lossExpiry (takers : List Receiver)
  -- machine ports; `chars`: the characters of the reply that had not yet arrived, the last of the frame included
  | exchangeTimeout (m : MachineId)
  | statusReply (m : MachineId) (chars : List Byte)
  | nakRefused (m : MachineId) (chars : List Byte)
  | nakLocal (m : MachineId) (chars : List Byte)
  | checkFailure (m : MachineId) (chars : List Byte) (faulty : Bool)
  | unsolicitedCharacter (m : MachineId)
  | portOffline (m : MachineId) (cause : PortError)
  | recoveryPoll (m : MachineId)
  | ctlPulse (m : MachineId) (forward : Bool)
  -- lock
  | lock (m : MachineId) (chars : List Byte)
  | unlock (m : MachineId) (cause : UnlockCause)
  -- the Run Controller at a field start
  | roll
  | cueTimeout
  | syncDeadline
  | editOnField
  | editOffField
  | postrollEnd
  -- the Cue Unit at a field start
  | cueFire (g : CueLineId)
  | cuePulseEnd (g : CueLineId)
  /-- `order`: the blocks in the order in which the report reaches them. -/
  | stopAssertion (order : List StopReport)
  | stopRelease
  -- the console link
  | transferStart
  /-- `bytes`: the console's whole message, its length byte first. -/
  | requestReceived (bytes : List Byte)
  /-- `bytes`: what the console clocked in after the request was received, or since the transfer began if none was. -/
  | transferEnd (bytes : List Byte)
  -- the Request Handler takes the request at the head of the inbound queue
  | unknownRequest
  | readStatus
  | restart
  | setOrigin
  | add
  | trimIn
  | trimOut
  | slip
  | trimTransition
  | setSplit
  | move
  | delete
  | readEvent
  | readOrdinal
  | next
  | previous
  | count
  | findAt
  | matchFrame
  | clearList
  | configureMachine
  | setRecorder
  /-- `elapsed`: time since the last timed event, which R2 needs to re-time the internal field clock. -/
  | setStandard (elapsed : Nat)
  | readMachine
  | stop
  | play
  | shuttle
  | locate
  | follow
  | unfollow
  | markIn
  | markOut
  | clearMarks
  | run
  | hold
  | abort
  | resumeRetry
  | resumeSkip
  | resetRun
  | readRun
  | setRunParameters
  | select
  | readEffects
  | setCueLine
  | fire
  | readCueLine
  -- characters on a deck link
  | replyCharacter (m : MachineId) (char : Byte)
  | requestSent (m : MachineId)
deriving DecidableEq, Repr

end Sys2Proof
end

