-- ==== Sys2Proof/Decode.lean ====
section
/-! DEFINITION. Reading a command from a word. spec/opcode_table.json gives no row any bits (its rows carry no word of
an encoding), so no word spells a command, and the decoder refuses every word. -/

namespace Sys2Proof

/-- The command whose bits are `w` in the table's numbering: none, for the table gives no row bits. -/
def decodeTableWord (_nbits _w : Nat) : Option Instr := none

end Sys2Proof
end

