-- ==== Sys2Proof/Config.lean ====
section
/-! DEFINITION. The fixed numbers of the part ("Fixed Numbers" of spec/00_scope.md) and the three values the manual leaves
open. -/

namespace Sys2Proof.Config

/-- Requests the console inbound queue holds (R181). -/
def inboundCapacity : Nat := 8

/-- Replies the console reply queue holds (R183). -/
def replyCapacity : Nat := 8

/-- Notices the console notice queue holds (R186). -/
def noticeCapacity : Nat := 32

/-- Requests a machine port's queue holds (R75, R83). -/
def portQueueCapacity : Nat := 4

/-- Slots of the event store, which are also the handles 0 to 511 (R32). -/
def slotCount : Nat := 512

/-- One more than the largest insertion number and field count, 4,294,967,295 (R20, R35). -/
def wordLimit : Nat := 4294967296

/-- Field starts from one recovery poll to the next (R82). -/
def recoveryFields : Nat := 32

/-- CTL frames beyond which an estimate is held (R87, R89). -/
def ctlFrameLimit : Nat := 256

/-- The largest good-pulse count (R15). -/
def goodPulses : Nat := 16

/-- The picture width in columns (R146). -/
def pictureWidth : Nat := 720

/-- FREE VALUE. The four bytes, read as one number, by which READ RUN reports an insertion number that is absent.
R141 has an empty field reported absent, and R196 gives the insertion number no absent value (log entry 12). -/
opaque absentInsertion : Nat

/-- FREE VALUE. The four bytes, read as one number, that stand for a field count in an answer of NONE: the start offset of
NEXT and PREVIOUS, and the j of MATCH FRAME. R40 and R42 answer NONE there, and R196 gives a field count no absent value (log
entry 12). -/
opaque absentFieldCount : Nat

/-- FREE VALUE. The byte that stands for the acknowledged flag of a locate that READ MACHINE reports absent. R196 gives a
flag no absent value (log entry 12). -/
opaque absentFlag : BitVec 8

end Sys2Proof.Config
end

