-- ==== Sys2Proof/Machine/State.lean ====
section
/-! DEFINITION. The state of the part as plain data, block by block ("Block Overview" of spec/00_scope.md), with the
queue of waiting commands, and the state right after full reset. Positions are field numbers of their domain (R4), kept as
natural numbers; speeds, offsets and splits are integers; a thing the manual calls "or none" is an `Option`. -/

namespace Sys2Proof.Machine

/-! ### Timeline Unit (chapter 1) -/

/-- The suite standard (R1). -/
inductive Standard where
  | s525
  | s625
deriving DecidableEq, Repr

/-- The three label modes (spec/00_scope.md, "Day lengths"). -/
inductive LabelMode where
  | df
  | ndf
  | m25
deriving DecidableEq, Repr

/-- A label's elements: hours, minutes, seconds, frames and the field as written (R5). -/
structure Label where
  hours : Nat
  minutes : Nat
  seconds : Nat
  frames : Nat
  field : Nat
deriving DecidableEq, Repr

/-- The reference state (section 1.4). -/
inductive RefState where
  | absent
  | presentWaiting
  | onReference
deriving DecidableEq, Repr

/-- The last taken pulse: its arrival time and field identification (section 1.4). -/
structure Pulse where
  time : Nat
  fieldId : Parity
deriving DecidableEq, Repr

/-- A field start: the field count and the parity it carries (R20). -/
structure FieldStart where
  count : Nat
  parity : Parity
deriving DecidableEq, Repr

/-- The running timeline clock: roll field count k0 and roll position T0 (R21). -/
structure TimelineClock where
  k0 : Nat
  t0 : Nat
deriving DecidableEq, Repr

/-- The Timeline Unit. Times are in units of 1/240,000 s (log entry 5). -/
structure Timeline where
  standard : Standard
  /-- The timeline origin, a position in the timeline domain (R13). -/
  origin : Nat
  refState : RefState
  goodCount : Nat
  lastPulse : Option Pulse
  /-- While ON_REFERENCE, the time from which the loss expiry is timed (R16, R19). -/
  refFieldStart : Option Nat
  /-- While ON_REFERENCE, whether a taken pulse that is not continuing has ended the field starts (R16). -/
  refBroken : Bool
  /-- The time from which the internal field clock's next field start is timed (R2, R17, R18). -/
  clockBase : Nat
  /-- The time of the internal field clock's last field start, or none (R19 step 4). -/
  lastTick : Option Nat
  /-- The parity to which the internal field clock's next field start is opposite (R2, R18). -/
  tickParity : Parity
  /-- The last field start of the part, or none before the first (R20). -/
  field : Option FieldStart
  /-- The timeline clock: none while STOPPED (R21). -/
  clock : Option TimelineClock
deriving DecidableEq, Repr

/-! ### Event Store (chapters 2 and 3) -/

/-- The kind of an event (R24). -/
inductive Kind where
  | cut
  | mix
  | wipe
  | box
deriving DecidableEq, Repr

/-- One track. -/
inductive Track where
  | v
  | a1
  | a2
  | a3
  | a4
deriving DecidableEq, Repr

/-- A set of tracks. -/
structure TrackSet where
  v : Bool
  a1 : Bool
  a2 : Bool
  a3 : Bool
  a4 : Bool
deriving DecidableEq, Repr

/-- A source of an event: its machine and its source in. -/
structure Source where
  machine : MachineId
  sourceIn : Nat
deriving DecidableEq, Repr

/-- The wipe fields of a WIPE or BOX. -/
structure Wipe where
  sx : Int
  sy : Nat
  reverse : Bool
deriving DecidableEq, Repr

/-- The key box and mask of a BOX. -/
structure KeyBox where
  kx0 : Nat
  kx1 : Nat
  ky0 : Nat
  ky1 : Nat
  mask : Nat
deriving DecidableEq, Repr

/-- The anchor of a cue entry: record in or record out (R25). -/
inductive Anchor where
  | recordIn
  | recordOut
deriving DecidableEq, Repr

/-- A cue entry (R25). -/
structure CueEntry where
  line : CueLineId
  anchor : Anchor
  offset : Int
  width : Nat
  recordOnly : Bool
deriving DecidableEq, Repr

/-- The console-supplied fields of an event record (R23). -/
structure Record where
  kind : Kind
  tracks : TrackSet
  recordIn : Nat
  duration : Nat
  source1 : Source
  source2 : Option Source
  /-- The transition duration D. -/
  transition : Option Nat
  wipe : Option Wipe
  box : Option KeyBox
  split : Option Int
  rate : Option Nat
  colour : Bool
  cues : List CueEntry
deriving DecidableEq, Repr

/-- The state of an event (R29). -/
inductive EventState where
  | opened
  | running
  | performed
deriving DecidableEq, Repr

/-- The two flags of an event (R30). -/
structure EventFlags where
  incomplete : Bool
  changed : Bool
deriving DecidableEq, Repr

/-- A live event: what the store gives it, and its record (R23). -/
structure Event where
  handle : Nat
  insertion : Nat
  state : EventState
  flags : EventFlags
  record : Record
deriving DecidableEq, Repr

/-- The Event Store. `events` holds the live events in the list order (R33); the free-slot set is every handle below 512
that no live event has (R32). -/
structure EventStore where
  events : List Event
  /-- The insertion counter (R35). -/
  counter : Nat
deriving DecidableEq, Repr

/-! ### Machine Ports (chapter 4) -/

/-- A port's link state (R71). -/
inductive LinkState where
  | absent
  | online
  | offline
  | localMode
deriving DecidableEq, Repr

/-- A request that a port's queue can hold (R73); POLL is never queued. -/
inductive DeckRequest where
  | stop
  | play
  | shuttle (speed : Int)
  | locate (target : Nat)
  | editOn (tracks : TrackSet)
  | editOff (tracks : TrackSet)
deriving DecidableEq, Repr

/-- A queued request; an edit request carries the handle of the event it was placed for (R130). -/
structure QueuedRequest where
  request : DeckRequest
  event : Option Nat
deriving DecidableEq, Repr

/-- How far the field's exchange has come (R75, R76). `completed extra`: `extra` is set once an unsolicited character has
been counted in the field (R80). -/
inductive Progress where
  | sending
  | listening (received : List Byte)
  | completed (extra : Bool)
  | failed
deriving DecidableEq, Repr

/-- The field's exchange. -/
structure Exchange where
  /-- The copy of the request that was sent; none for a POLL (R75). -/
  sent : Option QueuedRequest
  /-- Whether the request sent is still the head of the queue, that is, on the line (R75, R84). -/
  onLine : Bool
  /-- The characters put on the transmit line, and whether a break went before them (R82, R198). -/
  frame : List Byte
  afterBreak : Bool
  /-- The field count of the field start that opened the exchange (R111). -/
  field : Nat
  progress : Progress
deriving DecidableEq, Repr

/-- A machine port (section 4.1). -/
structure Port where
  link : LinkState
  queue : List QueuedRequest
  exchange : Option Exchange
  errors : Nat
  recovery : Nat
  ctlCounter : Int
  ctlTally : Nat
  ctlAnchor : Option Nat
deriving DecidableEq, Repr

/-! ### Machine Controller (chapter 5) -/

/-- The parameters of a machine (R95). -/
structure MachineParams where
  mode : LabelMode
  gain : Nat
  lockWindow : Nat
  lockCount : Nat
  unlockCount : Nat
  shuttleLimit : Nat
  lag : Int
  editDelay : Nat
  faultLimit : Nat
  ctlEnable : Bool
deriving DecidableEq, Repr

/-- The transport mode of a STATUS (R74). -/
inductive Transport where
  | stopped
  | playing
  | shuttling
  | locating
  | parked
  | tapeOut
deriving DecidableEq, Repr

/-- The control state of a machine (R93). -/
inductive ControlState where
  | free
  | locating
  | parked
  | chasing
  | locked
deriving DecidableEq, Repr

/-- Who began a locate (R93). -/
inductive LocateOwner where
  | console
  | run
deriving DecidableEq, Repr

/-- The locate record (R93). -/
structure Locate where
  target : Nat
  owner : LocateOwner
  acknowledged : Bool
  mismatches : Nat
deriving DecidableEq, Repr

/-- The leader of a machine (R93). -/
inductive Leader where
  | noLeader
  | timeline
  | machine (m : MachineId) (offset : Int)
deriving DecidableEq, Repr

/-- The run's target terms for a source (R109); the recorder has none. -/
structure TargetTerms where
  recordIn : Nat
  sourceIn : Nat
  rate : Nat
deriving DecidableEq, Repr

/-- The quality of a position estimate (R88, R89). -/
inductive Quality where
  | tc
  | ctl
  | stale
deriving DecidableEq, Repr

/-- A machine record (R93), but for the link state, which the port holds, and the role, which the state's `recorder`
holds. -/
structure MachineRec where
  configured : Bool
  params : MachineParams
  transport : Option Transport
  parkedFlag : Bool
  control : ControlState
  locate : Option Locate
  /-- The claim: RUN when set, NONE when clear. -/
  claimed : Bool
  leader : Leader
  /-- The target terms that go with the leader TIMELINE. -/
  terms : Option TargetTerms
  /-- The estimate P, or no P. -/
  position : Option Nat
  quality : Quality
  /-- Whether a TC update came since the machine's last field start (R89). -/
  tcUpdated : Bool
  stale : Nat
  inWindow : Nat
  outWindow : Nat
  markIn : Option Nat
  markOut : Option Nat
  lastSpeed : Option Int
deriving DecidableEq, Repr

/-- Why a locate failed (R104). -/
inductive LocateReason where
  | mismatch
  | refused
  | lost
  | offline
  | localMode
  | tapeOut
  | allStop
  | claimed
  | configuration
deriving DecidableEq, Repr

/-! ### Run Controller (chapter 6) -/

/-- The run parameters (R120). -/
structure RunParams where
  preroll : Nat
  postroll : Nat
  cueTimeout : Nat
  syncMargin : Nat
deriving DecidableEq, Repr

/-- The mode of a run (R119). -/
inductive RunMode where
  | preview
  | record
deriving DecidableEq, Repr

/-- The scope of a run: one handle, or a first and a last start offset (R119). -/
inductive Scope where
  | single (handle : Nat)
  | range (first last : Nat)
deriving DecidableEq, Repr

/-- The run phase (R119). -/
inductive Phase where
  | idle
  | cueing
  | rolling
  | editing
  | postroll
  | held
deriving DecidableEq, Repr

/-- The causes of a hold (section 6.9). -/
inductive HoldCause where
  | machineOffline
  | machineLocal
  | machineBusy
  | eventInvalid
  | cueFail
  | cueTimeout
  | syncFail
  | lockLost
  | editCommandFailed
  | holdRequest
  | referenceLost
  | allStop
  | operatorAbort
deriving DecidableEq, Repr

/-- The run's cursor: a start offset, with an insertion number or with none (R37). -/
structure Cursor where
  offset : Nat
  insertion : Option Nat
deriving DecidableEq, Repr

/-- An edit-on field and the track set of its EDIT ON (R125). -/
structure EditOn where
  position : Nat
  tracks : TrackSet
deriving DecidableEq, Repr

/-- The run times of the current event (R125). -/
structure RunTimes where
  t0 : Nat
  /-- One or two edit-on fields, the picture's first. -/
  editOns : List EditOn
  e0 : Nat
  syncDeadline : Nat
  editOff : Nat
  postrollEnd : Nat
deriving DecidableEq, Repr

/-- The state and flags the current event had at its take (R119). -/
structure PriorState where
  state : EventState
  flags : EventFlags
deriving DecidableEq, Repr

/-- A set hold-pending flag: its cause, and the machine of a deferred fault (R132, R136). -/
structure PendingHold where
  cause : HoldCause
  machine : Option MachineId
deriving DecidableEq, Repr

/-- The run record (R119). -/
structure RunRecord where
  mode : Option RunMode
  scope : Option Scope
  phase : Phase
  current : Option Nat
  copy : Option Event
  prior : Option PriorState
  times : Option RunTimes
  inForce : Option RunParams
  cursor : Cursor
  cueingCount : Nat
  editSet : TrackSet
  recordingStarted : Bool
  holdCause : Option HoldCause
  holdPending : Option PendingHold
  eventsDone : Nat
  /-- Whether the sync deadline's field start has been taken (R128). -/
  deadlinePassed : Bool
deriving DecidableEq, Repr

/-! ### Effects Generator (chapter 7) -/

/-- A select of the effects bus: a machine or BLACK (R146). -/
inductive BusSelect where
  | machine (m : MachineId)
  | black
deriving DecidableEq, Repr

/-- A span of columns [start, stop) in which B is shown (R146). -/
structure Span where
  start : Nat
  stop : Nat
deriving DecidableEq, Repr

/-- An effects frame (R146). -/
structure EffectsFrame where
  aSelect : BusSelect
  bSelect : BusSelect
  level : Nat
  lines : List (List Span)
deriving DecidableEq, Repr

/-- The rule by which a frame was formed (R145). -/
inductive FrameForm where
  | manual
  | leadIn
  | transition (step : Nat)
  | flip
deriving DecidableEq, Repr

/-- A loaded stepper (R152): the quotient q, remainder r and step count N computed at loading, the step number, the
output and the working value. -/
structure Stepper where
  quotient : Int
  remainder : Int
  count : Nat
  step : Nat
  output : Int
  working : Int
deriving DecidableEq, Repr

/-- The Effects Generator (R145). `framesSent` counts the frames sent on the effects port since full reset; the frame sent
last is the current frame (R147). -/
structure EffectsGenerator where
  manual : BusSelect
  programme : Option Event
  frame : EffectsFrame
  form : FrameForm
  stepper : Option Stepper
  freeze : Bool
  framesSent : Nat
deriving DecidableEq, Repr

/-! ### Cue Unit (chapter 8) -/

/-- A compare: a firing position and the width of its pulse (R167). -/
structure Compare where
  position : Nat
  width : Nat
deriving DecidableEq, Repr

/-- The polarity of a cue line (R167). -/
inductive Polarity where
  | activeHigh
  | activeLow
deriving DecidableEq, Repr

/-- The state of a cue line (R167). -/
structure CueLine where
  polarity : Polarity
  active : Bool
  counter : Nat
  armed : Option Compare
  buffered : Option Compare
  pendingList : List Compare
deriving DecidableEq, Repr

/-- The cue set: the event whose cues were last loaded, and the mode of that load (R167). -/
structure CueSet where
  handle : Nat
  mode : RunMode
deriving DecidableEq, Repr

/-- The recognised STOP state (R167, R175). -/
inductive StopState where
  | asserted
  | released
deriving DecidableEq, Repr

/-- The Cue Unit (R167). -/
structure CueUnit where
  lines : Bank CueLine
  cueSet : Option CueSet
  stop : StopState
deriving DecidableEq, Repr

/-! ### Console Port (chapter 9) -/

/-- The result codes, in the order that numbers them (R188, R195). -/
inductive Result where
  | ok
  | adjusted
  | accepted
  | badRequest
  | badTimecode
  | range
  | noEvent
  | listFull
  | overlap
  | performed
  | inRun
  | busy
  | notConfigured
  | noRecorder
  | sameMachine
  | conflict
  | inUse
  | listNotEmpty
  | claimed
  | following
  | cycle
  | offline
  | localMode
  | queueFull
  | noPosition
  | stopped
  | notHeld
  | notActive
deriving DecidableEq, Repr

/-- A received request: its code, tag and parameter bytes (R195). -/
structure RequestMessage where
  code : Byte
  tag : Byte
  params : List Byte
deriving DecidableEq, Repr

/-- A reply (R183, R195). -/
structure Reply where
  code : Byte
  tag : Byte
  result : Result
  data : List Byte
deriving DecidableEq, Repr

/-- The subject of a REFERENCE notice (R17, R19). -/
inductive RefSubject where
  | lost
  | restored
deriving DecidableEq, Repr

/-- A notice (R189). RUN_HELD carries no phase for a take hold, whose phase is reported TAKE (R142). -/
inductive Notice where
  | runPhase (phase : Phase) (mode : Option RunMode) (handle : Option Nat)
  | runHeld (cause : HoldCause) (machine : Option MachineId) (handle : Option Nat) (phase : Option Phase) (done : Nat)
  | runEnd (mode : Option RunMode) (done : Nat)
  | eventState (handle : Nat) (state : EventState) (flags : EventFlags)
  | machineState (m : MachineId) (link : LinkState) (control : ControlState) (claimed : Bool) (leader : Leader)
      (position : Option Label) (quality : Quality)
  | locateDone (m : MachineId) (target position : Label)
  | locateFailed (m : MachineId) (target : Label) (reason : LocateReason)
  | reference (subject : RefSubject)
  | allStop (subject : StopState)
deriving DecidableEq, Repr

/-- Where the outgoing message of a transfer stands: in no queue (the empty message, or one that RESTART has discarded),
at the head of the reply queue, or at the head of the notice queue (R184, R193). -/
inductive OutgoingSource where
  | noQueue
  | replyQueue
  | noticeQueue
deriving DecidableEq, Repr

/-- A transfer in progress (R179, R184). -/
structure Transfer where
  /-- The bytes of the message chosen at its start. -/
  outgoing : List Byte
  source : OutgoingSource
  /-- Whether the console's message has been received in this transfer. -/
  received : Bool
  /-- The bytes clocked so far, as far as they are known. -/
  clocked : Nat
  /-- Whether it began while the RESET input was asserted (R194). -/
  dead : Bool
deriving DecidableEq, Repr

/-- The Console Port. The attention line is computed from the queues (R185). -/
structure ConsolePort where
  inbound : List RequestMessage
  replies : List Reply
  notices : List Notice
  overrun : Bool
  overflow : Bool
  transfer : Option Transfer
  /-- The bytes that the part has sent on its data line in the transfer in progress, or in the last one: its message, then
  filler (R179, R195, R201). -/
  sent : List Byte
deriving DecidableEq, Repr

/-! ### The whole state -/

/-- Why the machine stops with a fault: never. Every step the manual describes leads to a next state, so the type has no
constructor. -/
inductive Fault where
deriving DecidableEq, Repr

/-- Why the machine refuses a command. -/
inductive Refusal where
  /-- Raised by `exec` for a command that has no meaning yet, by its mnemonic. Safe: the machine stops. No arm raises it. -/
  | notModelled (mnemonic : String)
deriving DecidableEq, Repr

/-- The state of the part, and the queue of commands that wait. -/
structure State where
  /-- Whether the RESET input is asserted. -/
  inReset : Bool
  /-- The time of the latest timed event, in units of 1/240,000 s since the RESET input was released (the model's own). -/
  now : Nat
  timeline : Timeline
  store : EventStore
  ports : Bank Port
  machines : Bank MachineRec
  /-- The recorder designation (R97). -/
  recorder : Option MachineId
  run : RunRecord
  runParams : RunParams
  effects : EffectsGenerator
  cues : CueUnit
  console : ConsolePort
  /-- The blocks that have not yet taken the last field start (the model's own, R20). -/
  waiting : List Receiver
  /-- The commands that wait, first in, first out (the model's own). -/
  pending : List Instr
deriving DecidableEq, Repr

/-! ### The state after full reset -/

/-- No track. -/
def TrackSet.none : TrackSet := ⟨false, false, false, false, false⟩

/-- The Timeline Unit after full reset (R22), its internal field clock started at the release (R18). -/
def Timeline.reset : Timeline :=
  { standard := .s525, origin := 0, refState := .absent, goodCount := 0, lastPulse := .none, refFieldStart := .none,
    refBroken := false, clockBase := 0, lastTick := .none, tickParity := .field2, field := .none, clock := .none }

/-- A port after full reset (R91). The recovery count has no reset value (log entry 6). -/
def Port.reset : Port :=
  { link := .absent, queue := [], exchange := .none, errors := 0, recovery := 0, ctlCounter := 0, ctlTally := 0,
    ctlAnchor := .none }

/-- The default parameters of R95 under the standard 525. -/
def MachineParams.reset : MachineParams :=
  { mode := .df, gain := 16, lockWindow := 1, lockCount := 8, unlockCount := 4, shuttleLimit := 8192, lag := 0,
    editDelay := 4, faultLimit := 2, ctlEnable := true }

/-- A machine record after full reset (R93, R118); the parameters of an unconfigured machine hold the defaults (log
entry 6). -/
def MachineRec.reset : MachineRec :=
  { configured := false, params := MachineParams.reset, transport := .none, parkedFlag := false, control := .free,
    locate := .none, claimed := false, leader := .noLeader, terms := .none, position := .none, quality := .stale,
    tcUpdated := false, stale := 0, inWindow := 0, outWindow := 0, markIn := .none, markOut := .none, lastSpeed := .none }

/-- The run parameters' defaults (R120). -/
def RunParams.reset : RunParams := { preroll := 300, postroll := 120, cueTimeout := 3600, syncMargin := 60 }

/-- The run record after full reset (R144). -/
def RunRecord.reset : RunRecord :=
  { mode := .none, scope := .none, phase := .idle, current := .none, copy := .none, prior := .none, times := .none,
    inForce := .none, cursor := ⟨0, .none⟩, cueingCount := 0, editSet := TrackSet.none, recordingStarted := false,
    holdCause := .none, holdPending := .none, eventsDone := 0, deadlinePassed := false }

/-- The Effects Generator after full reset (R166): a frame of the 240 lines of the standard 525. -/
def EffectsGenerator.reset : EffectsGenerator :=
  { manual := .black, programme := .none, frame := ⟨.black, .black, 0, List.replicate 240 []⟩, form := .manual,
    stepper := .none, freeze := false, framesSent := 0 }

/-- A cue line after full reset (R178). -/
def CueLine.reset : CueLine :=
  { polarity := .activeHigh, active := false, counter := 0, armed := .none, buffered := .none, pendingList := [] }

/-- The Console Port after full reset (R194); no byte sent is the model's own value (log entry 6). -/
def ConsolePort.reset : ConsolePort :=
  { inbound := [], replies := [], notices := [], overrun := false, overflow := false, transfer := .none,
    sent := [] }

/-- The part right after full reset, the RESET input just released (log entry 7): every block at the full-reset values of
its own chapter (R22, R45, R91, R118, R144, R166, R178, R194), and no command waiting. -/
def State.reset : State :=
  { inReset := false, now := 0, timeline := Timeline.reset, store := ⟨[], 0⟩, ports := Bank.fill Port.reset,
    machines := Bank.fill MachineRec.reset, recorder := .none, run := RunRecord.reset, runParams := RunParams.reset,
    effects := EffectsGenerator.reset, cues := ⟨Bank.fill CueLine.reset, .none, .released⟩, console := ConsolePort.reset,
    waiting := [], pending := [] }

end Sys2Proof.Machine
end

