-- ==== Sys2Proof/Machine/Timecode.lean ====
section
/-! DEFINITION. Standards, domains, labels and the arithmetic on positions (spec/01, R1 to R14). -/

namespace Sys2Proof.Machine

/-! ### Standards and domains -/

/-- The opposite field. -/
def opposite : Parity → Parity
  | .field1 => .field2
  | .field2 => .field1

/-- The nominal field period in units of 1/240,000 s: 1001/60,000 s in 525, 1/50 s in 625 (R1). -/
def Standard.period : Standard → Nat
  | .s525 => 4004
  | .s625 => 4800

/-- The colour frame period P in fields (R1). -/
def Standard.colourPeriod : Standard → Nat
  | .s525 => 4
  | .s625 => 8

/-- The active lines per field (R1). -/
def Standard.lines : Standard → Nat
  | .s525 => 240
  | .s625 => 288

/-- The default label mode of a standard (R1). -/
def Standard.defaultMode : Standard → LabelMode
  | .s525 => .df
  | .s625 => .m25

/-- The label modes a standard allows (R1). -/
def Standard.allows : Standard → LabelMode → Bool
  | .s525, .df => true
  | .s525, .ndf => true
  | .s525, .m25 => false
  | .s625, .df => false
  | .s625, .ndf => false
  | .s625, .m25 => true

/-- The day of a domain in fields (spec/00_scope.md, "Day lengths"). -/
def LabelMode.day : LabelMode → Nat
  | .df => 5178816
  | .ndf => 5184000
  | .m25 => 4320000

/-- The frame rate R of a label mode (R6, R9). -/
def LabelMode.rate : LabelMode → Nat
  | .df => 30
  | .ndf => 30
  | .m25 => 25

/-- The parity of a position: even is field 1, odd is field 2 (R4). -/
def parityOf (position : Nat) : Parity := if position % 2 = 0 then .field1 else .field2

/-! ### Arithmetic on positions -/

/-- A count of fields brought into 0 to day − 1 (R11). -/
def wrap (day : Nat) (x : Int) : Nat := (x % (day : Int)).toNat

/-- A count of fields brought into the range greater than −day/2 and not greater than +day/2 (R12). -/
def fold (day : Nat) (x : Int) : Int :=
  if 2 * (x % (day : Int)) > day then x % (day : Int) - day else x % (day : Int)

/-- The folded difference a − b of two positions of a domain (R12). -/
def foldDiff (day a b : Nat) : Int := fold day ((a : Int) - (b : Int))

/-- The earlier of two positions, judged by the folded difference (R125). -/
def earlier (day a b : Nat) : Nat := if foldDiff day a b ≤ 0 then a else b

/-- The timeline offset of a record position (R13). -/
def offsetFrom (day origin position : Nat) : Nat := wrap day ((position : Int) - (origin : Int))

/-- The colour nudge (r − s) mod P (R14, R51). -/
def nudgeOf (period recordIn sourceIn : Nat) : Nat := wrap period ((recordIn : Int) - (sourceIn : Int))

/-- ⌊j × rate / 256⌋ (R42, R111). -/
def rateFields (j : Int) (rate : Nat) : Int := j * (rate : Int) / 256

/-! ### Labels -/

/-- Every element of the label is in range for the mode (R5). -/
def labelInRange (mode : LabelMode) (l : Label) : Bool :=
  l.hours < 24 && l.minutes < 60 && l.seconds < 60 && l.frames < mode.rate && (l.field == 1 || l.field == 2)

/-- The label is one the drop-frame count skips (R7). -/
def isDropped (mode : LabelMode) (l : Label) : Bool :=
  match mode with
  | .df => l.seconds == 0 && (l.frames == 0 || l.frames == 1) && l.minutes % 10 != 0
  | .ndf => false
  | .m25 => false

/-- The frame number of a valid label that is not a dropped one (R6, R7). -/
def frameNumber (mode : LabelMode) (l : Label) : Nat :=
  match mode with
  | .df =>
    ((l.hours * 60 + l.minutes) * 60 + l.seconds) * 30 + l.frames
      - 2 * ((l.hours * 60 + l.minutes) - (l.hours * 60 + l.minutes) / 10)
  | .ndf => ((l.hours * 60 + l.minutes) * 60 + l.seconds) * 30 + l.frames
  | .m25 => ((l.hours * 60 + l.minutes) * 60 + l.seconds) * 25 + l.frames

/-- The field number of a valid label (R6, R7). -/
def fieldNumber (mode : LabelMode) (l : Label) : Nat := 2 * frameNumber mode l + (l.field - 1)

/-- A console label as used: its field number, and whether a dropped label was advanced to frame 2 (R7); none when it is
out of range and the request is refused BAD_TIMECODE (R5). -/
def consoleLabel (mode : LabelMode) (l : Label) : Option (Nat × Bool) :=
  if labelInRange mode l then
    if isDropped mode l then some (fieldNumber mode { l with frames := 2 }, true)
    else some (fieldNumber mode l, false)
  else none

/-- A deck label's field number; none when it is invalid for the mode (R8). -/
def deckLabel (mode : LabelMode) (l : Label) : Option Nat :=
  if labelInRange mode l && !isDropped mode l then some (fieldNumber mode l) else none

/-- The label number of a frame (R9, R10). -/
def labelNumber (mode : LabelMode) (frame : Nat) : Nat :=
  match mode with
  | .df =>
    frame + 18 * (frame / 17982) + (if 2 ≤ frame % 17982 then 2 * ((frame % 17982 - 2) / 1798) else 0)
  | .ndf => frame
  | .m25 => frame

/-- The label of a field number (R9). -/
def labelOf (mode : LabelMode) (position : Nat) : Label :=
  { hours := labelNumber mode (position / 2) / mode.rate / 3600
    minutes := labelNumber mode (position / 2) / mode.rate / 60 % 60
    seconds := labelNumber mode (position / 2) / mode.rate % 60
    frames := labelNumber mode (position / 2) % mode.rate
    field := position % 2 + 1 }

/-! ### The timeline domain, the field count and the timeline clock -/

/-- The label mode of a machine's record. -/
def modeOf (s : State) (m : MachineId) : LabelMode := (s.machines.get m).params.mode

/-- The day of a machine's domain (R3). -/
def dayOf (s : State) (m : MachineId) : Nat := (modeOf s m).day

/-- The label mode of the timeline domain (R3). -/
def timelineMode (s : State) : LabelMode :=
  match s.recorder with
  | some m => modeOf s m
  | none => s.timeline.standard.defaultMode

/-- day_rec, the day of the timeline domain (R3). -/
def dayRec (s : State) : Nat := (timelineMode s).day

/-- The field count of the last field start, 0 before the first (R20). -/
def fieldCount (s : State) : Nat :=
  match s.timeline.field with
  | some f => f.count
  | none => 0

/-- The field count that follows (R20). -/
def nextCount (s : State) : Nat :=
  match s.timeline.field with
  | some f => (f.count + 1) % Config.wordLimit
  | none => 0

/-- The fields from the roll to the field start with count k, mod 4,294,967,296 (R21). -/
def sinceRoll (c : TimelineClock) (k : Nat) : Nat := wrap Config.wordLimit ((k : Int) - (c.k0 : Int))

/-- The timeline position of the field start with count k (R21), or none while the clock is STOPPED or when that field
start came before the roll (R111; log entry 19). -/
def positionAt (s : State) (k : Nat) : Option Nat :=
  match s.timeline.clock with
  | none => none
  | some c =>
    if sinceRoll c k ≤ sinceRoll c (fieldCount s) then some (wrap (dayRec s) ((c.t0 : Int) + (sinceRoll c k : Int)))
    else none

/-- The timeline position of the last field start. -/
def currentPosition (s : State) : Option Nat := positionAt s (fieldCount s)

end Sys2Proof.Machine
end

