-- ==== Sys2Proof/Machine/Ops.lean ====
section
/-! DEFINITION. The named operations over the state that every block shares: reading and writing a port and a machine
record, the run's and the link's updates, the notice queue (R186, R187), the reply queue (R183), and a change of a machine
record with the MACHINE_STATE notice it raises (R94). The part has no exception entry: a failure is a reply, a notice, a
flag or a hold, each an effect on State. -/

namespace Sys2Proof.Machine

/-! ### Reading and writing a unit -/

/-- The port of a machine. -/
def State.port (s : State) (m : MachineId) : Port := s.ports.get m

/-- The record of a machine. -/
def State.machine (s : State) (m : MachineId) : MachineRec := s.machines.get m

/-- The state with one port replaced. -/
def State.setPort (s : State) (m : MachineId) (p : Port) : State := { s with ports := s.ports.set m p }

/-- The state with one machine record replaced. -/
def State.setMachine (s : State) (m : MachineId) (r : MachineRec) : State := { s with machines := s.machines.set m r }

/-- The state with the run record changed. -/
def State.updateRun (s : State) (f : RunRecord → RunRecord) : State := { s with run := f s.run }

/-- The state with the Timeline Unit changed. -/
def State.updateTimeline (s : State) (f : Timeline → Timeline) : State := { s with timeline := f s.timeline }

/-- The state with the Effects Generator changed. -/
def State.updateEffects (s : State) (f : EffectsGenerator → EffectsGenerator) : State := { s with effects := f s.effects }

/-- The state with the Cue Unit changed. -/
def State.updateCues (s : State) (f : CueUnit → CueUnit) : State := { s with cues := f s.cues }

/-- The state with the Console Port changed. -/
def State.updateConsole (s : State) (f : ConsolePort → ConsolePort) : State := { s with console := f s.console }

/-- Whether the STOP input is recognised as asserted (R175). -/
def State.stopAsserted (s : State) : Bool := s.cues.stop == .asserted

/-- The port's link state, which the machine record shows too (section 4.1, R93). -/
def State.link (s : State) (m : MachineId) : LinkState := (s.port m).link

/-- The active phases (R119). -/
def Phase.active : Phase → Bool
  | .idle => false
  | .cueing => true
  | .rolling => true
  | .editing => true
  | .postroll => true
  | .held => false

/-- The phase is IDLE or HELD (R19). -/
def Phase.atRest (p : Phase) : Bool := !p.active

/-! ### Track sets -/

/-- Whether a track is in a set. -/
def TrackSet.has (t : TrackSet) : Track → Bool
  | .v => t.v
  | .a1 => t.a1
  | .a2 => t.a2
  | .a3 => t.a3
  | .a4 => t.a4

/-- The tracks in the order of R52. -/
def Track.all : List Track := [.v, .a1, .a2, .a3, .a4]

/-- The union of two track sets. -/
def TrackSet.union (a b : TrackSet) : TrackSet :=
  ⟨a.v || b.v, a.a1 || b.a1, a.a2 || b.a2, a.a3 || b.a3, a.a4 || b.a4⟩

/-- Whether the set holds an audio track. -/
def TrackSet.hasAudio (t : TrackSet) : Bool := t.a1 || t.a2 || t.a3 || t.a4

/-- The set {V}. -/
def TrackSet.vOnly : TrackSet := ⟨true, false, false, false, false⟩

/-- The audio tracks of a set. -/
def TrackSet.audio (t : TrackSet) : TrackSet := { t with v := false }

/-- Whether the set is empty. -/
def TrackSet.isEmpty (t : TrackSet) : Bool := !(t.v || t.hasAudio)

/-! ### The notice queue -/

/-- The notice is a MACHINE_STATE whose subject is the machine. -/
def Notice.isStateOf (m : MachineId) : Notice → Bool
  | .machineState n _ _ _ _ _ _ => n == m
  | .runPhase _ _ _ => false
  | .runHeld _ _ _ _ _ => false
  | .runEnd _ _ => false
  | .eventState _ _ _ => false
  | .locateDone _ _ _ => false
  | .locateFailed _ _ _ => false
  | .reference _ => false
  | .allStop _ => false

/-- The machine whose MACHINE_STATE the notice is, if it is one. -/
def Notice.stateMachine? : Notice → Option MachineId
  | .machineState m _ _ _ _ _ _ => some m
  | .runPhase _ _ _ => none
  | .runHeld _ _ _ _ _ => none
  | .runEnd _ _ => none
  | .eventState _ _ _ => none
  | .locateDone _ _ _ => none
  | .locateFailed _ _ _ => none
  | .reference _ => none
  | .allStop _ => none

/-- How many notices at the head of the queue are on the link: one during a transfer that carries a notice (R184). -/
def ConsolePort.noticesOnLink (c : ConsolePort) : Nat :=
  match c.transfer with
  | some t => match t.source with
    | .noticeQueue => 1
    | .replyQueue => 0
    | .noQueue => 0
  | none => 0

/-- Removes the first element that passes a test. -/
def eraseFirst {α : Type} (p : α → Bool) : List α → List α
  | [] => []
  | x :: xs => if p x then xs else x :: eraseFirst p xs

/-- The notice queue after a notice is raised, and whether it was dropped (R186, R187): a MACHINE_STATE takes the place of
an unread one for the same machine, any other is placed at the tail while there is room. -/
def ConsolePort.place (c : ConsolePort) (n : Notice) : ConsolePort :=
  match n.stateMachine? with
  | some m =>
    if (c.notices.drop c.noticesOnLink).any (Notice.isStateOf m) then
      { c with notices :=
          c.notices.take c.noticesOnLink ++ eraseFirst (Notice.isStateOf m) (c.notices.drop c.noticesOnLink) ++ [n] }
    else if c.notices.length < Config.noticeCapacity then { c with notices := c.notices ++ [n] }
    else { c with overflow := true }
  | none =>
    if c.notices.length < Config.noticeCapacity then { c with notices := c.notices ++ [n] }
    else { c with overflow := true }

/-- A block raises a notice (R186, R187). -/
def raiseNotice (s : State) (n : Notice) : State := s.updateConsole (fun c => c.place n)

/-- A reply is placed at the tail of the reply queue (R183). -/
def placeReply (s : State) (r : Reply) : State := s.updateConsole (fun c => { c with replies := c.replies ++ [r] })

/-! ### MACHINE_STATE notices -/

/-- A position as a label in the machine's mode. -/
def machineLabel (s : State) (m : MachineId) (position : Nat) : Label := labelOf (modeOf s m) position

/-- A record position as a label in the timeline domain. -/
def timelineLabel (s : State) (position : Nat) : Label := labelOf (timelineMode s) position

/-- The MACHINE_STATE notice of a machine as it stands (R94). -/
def machineStateNotice (s : State) (m : MachineId) : Notice :=
  .machineState m (s.link m) (s.machine m).control (s.machine m).claimed (s.machine m).leader
    ((s.machine m).position.map (machineLabel s m)) (s.machine m).quality

/-- Raises the MACHINE_STATE notice of a machine as it stands. -/
def raiseMachineState (s : State) (m : MachineId) : State := raiseNotice s (machineStateNotice s m)

/-- Changes a machine record, and raises MACHINE_STATE when its control state or claim changed (R94). -/
def changeMachine (s : State) (m : MachineId) (f : MachineRec → MachineRec) : State :=
  if (f (s.machine m)).control = (s.machine m).control ∧ (f (s.machine m)).claimed = (s.machine m).claimed then
    s.setMachine m (f (s.machine m))
  else raiseMachineState (s.setMachine m (f (s.machine m))) m

/-! ### What the blocks report to the Run Controller -/

/-- What the Machine Controller or a port reports to the Run Controller (R94, R103, R104, R113, R114, R130). -/
inductive RunReport where
  | locateFailed (m : MachineId) (reason : LocateReason)
  | linkChanged (m : MachineId) (link : LinkState)
  | lockLost (m : MachineId)
  | editOnFailed (event : Option Nat)
deriving DecidableEq, Repr

/-- The timeline clock started at this field start with T0 as the roll position (R21). -/
def startClock (s : State) (t0 : Nat) : State :=
  s.updateTimeline (fun t => { t with clock := some ⟨fieldCount s, t0⟩ })

/-- The timeline clock stopped; a stop while STOPPED changes nothing (R21). -/
def stopClock (s : State) : State := s.updateTimeline (fun t => { t with clock := none })

end Sys2Proof.Machine
end

