-- ==== Sys2Proof/Machine/Operands.lean ====
section
/-! DEFINITION. The elements of console messages (R195, R196), written and read, and the form stage of the Request Handler
(R182 stage 1): a received request's code and parameter bytes read as the request they lay out, or as none. -/

namespace Sys2Proof.Machine

/-! ### Writing elements (R196) -/

/-- One byte. -/
def u8 (n : Nat) : List Byte := [BitVec.ofNat 8 n]

/-- Two bytes, high byte first. -/
def u16 (n : Nat) : List Byte := [BitVec.ofNat 8 (n / 256), BitVec.ofNat 8 n]

/-- Four bytes, high byte first. -/
def u32 (n : Nat) : List Byte := u16 (n / 65536) ++ u16 n

/-- A signed number in two bytes, two's complement. -/
def i16 (x : Int) : List Byte := u16 (x % 65536).toNat

/-- A signed number in four bytes, two's complement. -/
def i32 (x : Int) : List Byte := u32 (x % 4294967296).toNat

/-- A flag. -/
def flagByte (b : Bool) : List Byte := u8 (if b then 1 else 0)

/-- A label. -/
def labelBytes (l : Label) : List Byte := u8 l.hours ++ u8 l.minutes ++ u8 l.seconds ++ u8 l.frames ++ u8 l.field

/-- A label, or the absent label, every byte FFh. -/
def labelOrAbsent : Option Label → List Byte
  | some l => labelBytes l
  | none => List.replicate 5 0xff#8

/-- A handle, ordinal or count that may be NONE. -/
def countOrNone : Option Nat → List Byte
  | some n => u16 n
  | none => u16 65535

/-- A machine, or NONE. -/
def machineOrNone : Option MachineId → List Byte
  | some m => u8 m.toNat
  | none => u8 255

/-- A bus select: a machine, or BLACK. -/
def busByte : BusSelect → List Byte
  | .machine m => u8 m.toNat
  | .black => u8 8

/-- A leader's machine element and follow offset; the offset is 0 without a follow (section 10.2). -/
def leaderBytes : Leader → List Byte
  | .noLeader => u8 255 ++ i32 0
  | .timeline => u8 16 ++ i32 0
  | .machine m off => u8 m.toNat ++ i32 off

/-- The number of a track. -/
def Track.code : Track → Nat
  | .v => 0 | .a1 => 1 | .a2 => 2 | .a3 => 3 | .a4 => 4

/-- A track, or NONE. -/
def trackOrNone : Option Track → List Byte
  | some t => u8 t.code
  | none => u8 255

/-- A track set as a number: bit 0 V, bits 1 to 4 A1 to A4. -/
def TrackSet.code (t : TrackSet) : Nat :=
  (if t.v then 1 else 0) + (if t.a1 then 2 else 0) + (if t.a2 then 4 else 0) + (if t.a3 then 8 else 0)
    + (if t.a4 then 16 else 0)

/-- A named value by its number, or the absent value FFh. -/
def namedOrAbsent : Option Nat → List Byte
  | some n => u8 n
  | none => u8 255

/-- A speed, or none, 8000h. -/
def speedOrNone : Option Int → List Byte
  | some v => i16 v
  | none => u16 32768

/-! ### The numbers of named values (R196) -/

/-- standard -/
def Standard.code : Standard → Nat
  | .s525 => 0 | .s625 => 1

/-- label mode -/
def LabelMode.code : LabelMode → Nat
  | .df => 0 | .ndf => 1 | .m25 => 2

/-- kind -/
def Kind.code : Kind → Nat
  | .cut => 0 | .mix => 1 | .wipe => 2 | .box => 3

/-- event state -/
def EventState.code : EventState → Nat
  | .opened => 0 | .running => 1 | .performed => 2

/-- run mode -/
def RunMode.code : RunMode → Nat
  | .preview => 0 | .record => 1

/-- phase -/
def Phase.code : Phase → Nat
  | .idle => 0 | .cueing => 1 | .rolling => 2 | .editing => 3 | .postroll => 4 | .held => 5

/-- The phase of a hold: TAKE, 06h, for a take hold. -/
def holdPhaseCode : Option Phase → Nat
  | some p => p.code
  | none => 6

/-- link state -/
def LinkState.code : LinkState → Nat
  | .absent => 0 | .online => 1 | .offline => 2 | .localMode => 3

/-- control state -/
def ControlState.code : ControlState → Nat
  | .free => 0 | .locating => 1 | .parked => 2 | .chasing => 3 | .locked => 4

/-- locate owner -/
def LocateOwner.code : LocateOwner → Nat
  | .console => 0 | .run => 1

/-- transport mode, as on the deck link (R198) -/
def Transport.code : Transport → Nat
  | .stopped => 0 | .playing => 1 | .shuttling => 2 | .locating => 3 | .parked => 4 | .tapeOut => 5

/-- quality -/
def Quality.code : Quality → Nat
  | .tc => 0 | .ctl => 1 | .stale => 2

/-- reference state -/
def RefState.code : RefState → Nat
  | .absent => 0 | .presentWaiting => 1 | .onReference => 2

/-- hold cause -/
def HoldCause.code : HoldCause → Nat
  | .machineOffline => 0 | .machineLocal => 1 | .machineBusy => 2 | .eventInvalid => 3 | .cueFail => 4
  | .cueTimeout => 5 | .syncFail => 6 | .lockLost => 7 | .editCommandFailed => 8 | .holdRequest => 9
  | .referenceLost => 10 | .allStop => 11 | .operatorAbort => 12

/-- locate failure reason -/
def LocateReason.code : LocateReason → Nat
  | .mismatch => 0 | .refused => 1 | .lost => 2 | .offline => 3 | .localMode => 4 | .tapeOut => 5 | .allStop => 6
  | .claimed => 7 | .configuration => 8

/-- frame form -/
def FrameForm.code : FrameForm → Nat
  | .manual => 0 | .leadIn => 1 | .transition _ => 2 | .flip => 3

/-- polarity -/
def Polarity.code : Polarity → Nat
  | .activeHigh => 0 | .activeLow => 1

/-- ALL_STOP subject, by which READ STATUS reports the recognised STOP state too (log entry 13) -/
def StopState.code : StopState → Nat
  | .asserted => 0 | .released => 1

/-- REFERENCE subject -/
def RefSubject.code : RefSubject → Nat
  | .lost => 0 | .restored => 1

/-- The number of a result code, in the order of R188's table (R195). -/
def Result.code : Result → Nat
  | .ok => 0 | .adjusted => 1 | .accepted => 2 | .badRequest => 3 | .badTimecode => 4 | .range => 5 | .noEvent => 6
  | .listFull => 7 | .overlap => 8 | .performed => 9 | .inRun => 10 | .busy => 11 | .notConfigured => 12
  | .noRecorder => 13 | .sameMachine => 14 | .conflict => 15 | .inUse => 16 | .listNotEmpty => 17 | .claimed => 18
  | .following => 19 | .cycle => 20 | .offline => 21 | .localMode => 22 | .queueFull => 23 | .noPosition => 24
  | .stopped => 25 | .notHeld => 26 | .notActive => 27

/-! ### Reading elements -/

/-- A reader takes its element from the front of the bytes and leaves the rest; none when the bytes run out or do not
spell the element. -/
abbrev Reader (α : Type) := List Byte → Option (α × List Byte)

/-- One byte as a number. -/
def readU8 : Reader Nat
  | b :: rest => some (b.toNat, rest)
  | [] => none

/-- Two bytes, high byte first. -/
def readU16 : Reader Nat
  | a :: b :: rest => some (a.toNat * 256 + b.toNat, rest)
  | _ => none

/-- Four bytes, high byte first. -/
def readU32 : Reader Nat
  | a :: b :: c :: d :: rest => some (((a.toNat * 256 + b.toNat) * 256 + c.toNat) * 256 + d.toNat, rest)
  | _ => none

/-- A number of 2·half values read as two's complement. -/
def signed (half n : Nat) : Int := if n < half then (n : Int) else (n : Int) - 2 * (half : Int)

/-- One byte, signed. -/
def readI8 : Reader Int := fun bs => (readU8 bs).map (fun r => (signed 128 r.1, r.2))

/-- Two bytes, signed. -/
def readI16 : Reader Int := fun bs => (readU16 bs).map (fun r => (signed 32768 r.1, r.2))

/-- Four bytes, signed. -/
def readI32 : Reader Int := fun bs => (readU32 bs).map (fun r => (signed 2147483648 r.1, r.2))

/-- A label's five bytes. -/
def readLabel : Reader Label
  | h :: m :: s :: f :: fd :: rest => some (⟨h.toNat, m.toNat, s.toNat, f.toNat, fd.toNat⟩, rest)
  | _ => none

/-- A machine element that must name M0 to M7 (R182). -/
def readMachine : Reader MachineId
  | b :: rest => (Unit8.ofNat? b.toNat).map (fun m => (m, rest))
  | [] => none

/-- An element that is present when its presence bit is set. -/
def readIf {α : Type} (bit : Bool) (r : Reader α) : Reader (Option α) :=
  fun bs => if bit then (r bs).map (fun x => (some x.1, x.2)) else some (none, bs)

/-- The element that was read, when it used up all the bytes. -/
def whole {α : Type} : Option (α × List Byte) → Option α
  | some (x, []) => some x
  | _ => none

/-! ### Requests as laid out -/

/-- The edit mode (R196). -/
inductive EditMode where
  | noMode
  | place
  | ripple
  | leaveGap
deriving DecidableEq, Repr

/-- A cue entry as its five bytes lay it out (R197). -/
structure CueBytes where
  line : Nat
  anchor : Nat
  offset : Int
  width : Nat
deriving DecidableEq, Repr

/-- The record block (R197), its labels not yet converted. Source 2 is read when its presence bit is set. -/
structure RecordBlock where
  kind : Nat
  tracks : Nat
  hasSource2 : Bool
  hasTransition : Bool
  hasWipe : Bool
  hasBox : Bool
  hasSplit : Bool
  hasRate : Bool
  /-- Without marks (bit 6 set). -/
  hasPositions : Bool
  colour : Nat
  recordIn : Label
  duration : Nat
  machine1 : MachineId
  in1 : Label
  machine2 : Option MachineId
  in2 : Label
  transition : Nat
  sx : Int
  sy : Nat
  wipeFlags : Nat
  kx0 : Nat
  kx1 : Nat
  ky0 : Nat
  ky1 : Nat
  mask : Nat
  split : Int
  rate : Nat
  cues : List CueBytes
deriving DecidableEq, Repr

/-- The parameters CONFIGURE MACHINE carries (R95), each when its presence bit is set. -/
structure ConfigureParams where
  mode : Option Nat
  gain : Option Nat
  lockWindow : Option Nat
  lockCount : Option Nat
  unlockCount : Option Nat
  shuttleLimit : Option Nat
  lag : Option Int
  editDelay : Option Nat
  faultLimit : Option Nat
  ctlEnable : Option Nat
deriving DecidableEq, Repr

/-- A RUN scope as laid out. -/
inductive ScopeBytes where
  | single (handle : Nat)
  | range (first last : Label)
deriving DecidableEq, Repr

/-- The requests of the part (R183, R195), as laid out. -/
inductive Request where
  | readStatus
  | restart
  | setOrigin (label : Label)
  | add (mode : EditMode) (block : RecordBlock)
  | trimIn (mode : EditMode) (handle : Nat) (delta : Int)
  | trimOut (mode : EditMode) (handle : Nat) (delta : Int)
  | slip (mode : EditMode) (handle source : Nat) (delta : Int)
  | trimTransition (handle : Nat) (delta : Int)
  | setSplit (handle : Nat) (split : Int)
  | move (mode : EditMode) (handle : Nat) (label : Label)
  | delete (mode : EditMode) (handle : Nat)
  | readEvent (handle : Nat)
  | readOrdinal (ordinal : Nat)
  | next (handle : Nat)
  | previous (handle : Nat)
  | count
  | findAt (label : Label) (track : Nat)
  | matchFrame (label : Label) (track : Nat)
  | clearList
  | configureMachine (m : MachineId) (action : Nat) (params : ConfigureParams)
  | setRecorder (m : Option MachineId)
  | setStandard (value : Nat)
  | readMachine (m : MachineId)
  | stop (m : MachineId)
  | play (m : MachineId)
  | shuttle (m : MachineId) (speed : Int)
  | locate (m : MachineId) (label : Label)
  | follow (follower leader : MachineId) (offset : Int)
  | unfollow (m : MachineId)
  | markIn (m : MachineId)
  | markOut (m : MachineId)
  | clearMarks (m : MachineId)
  | run (mode : Nat) (scope : ScopeBytes)
  | hold
  | abort
  | resumeRetry
  | resumeSkip
  | resetRun
  | readRun
  | setRunParameters (preroll postroll cueTimeout syncMargin : Option Nat)
  | select (value : Nat)
  | readEffects (line : Nat)
  | setCueLine (line polarity : Nat)
  | fire (line width : Nat)
  | readCueLine (line : Nat)
deriving DecidableEq, Repr

/-! ### The form stage -/

/-- An edit mode inside its list (R182). -/
def readEditMode : Reader EditMode
  | b :: rest =>
    match b.toNat with
    | 0 => some (.noMode, rest)
    | 1 => some (.place, rest)
    | 2 => some (.ripple, rest)
    | 3 => some (.leaveGap, rest)
    | _ => none
  | [] => none

/-- A bit of a presence field. -/
def presenceBit (n k : Nat) : Bool := n.testBit k

/-- Exactly n cue entries, and nothing after them. -/
def readCues : Nat → List Byte → Option (List CueBytes)
  | 0, [] => some []
  | 0, _ :: _ => none
  | n + 1, l :: a :: o1 :: o0 :: w :: rest =>
    (readCues n rest).map (fun cs =>
      ⟨l.toNat, a.toNat, signed 32768 (o1.toNat * 256 + o0.toNat), w.toNat⟩ :: cs)
  | _ + 1, _ => none

/-- The record block of an ADD (R197): its length must give the cue count's entries, the count must be at most 4, the
presence byte's bit 7 zero, and each source machine that is read must be one of M0 to M7. -/
def readRecordBlock (bs : List Byte) : Option RecordBlock := do
  let (kind, bs) ← readU8 bs
  let (tracks, bs) ← readU8 bs
  let (presence, bs) ← readU8 bs
  let (colour, bs) ← readU8 bs
  let (recordIn, bs) ← readLabel bs
  let (duration, bs) ← readU32 bs
  let (machine1, bs) ← readMachine bs
  let (in1, bs) ← readLabel bs
  let (source2, bs) ← readU8 bs
  let (in2, bs) ← readLabel bs
  let (transition, bs) ← readU16 bs
  let (sx, bs) ← readI16 bs
  let (sy, bs) ← readU16 bs
  let (wipeFlags, bs) ← readU8 bs
  let (kx0, bs) ← readU16 bs
  let (kx1, bs) ← readU16 bs
  let (ky0, bs) ← readU16 bs
  let (ky1, bs) ← readU16 bs
  let (mask, bs) ← readU8 bs
  let (split, bs) ← readI16 bs
  let (rate, bs) ← readU16 bs
  let (cueCount, bs) ← readU8 bs
  let cues ← readCues cueCount bs
  if 4 < cueCount || presenceBit presence 7 || (presenceBit presence 0 && (Unit8.ofNat? source2).isNone) then none
  else
    some { kind, tracks, hasSource2 := presenceBit presence 0, hasTransition := presenceBit presence 1,
           hasWipe := presenceBit presence 2, hasBox := presenceBit presence 3, hasSplit := presenceBit presence 4,
           hasRate := presenceBit presence 5, hasPositions := presenceBit presence 6, colour, recordIn, duration,
           machine1, in1, machine2 := if presenceBit presence 0 then Unit8.ofNat? source2 else none, in2, transition,
           sx, sy, wipeFlags, kx0, kx1, ky0, ky1, mask, split, rate, cues }

/-- The parameters of CONFIGURE MACHINE after its machine and action: the presence field, two bytes, and the parameters
whose bits are set, in the order of R95's table. -/
def readConfigureParams (bs : List Byte) : Option ConfigureParams := do
  let (p, bs) ← readU16 bs
  let (mode, bs) ← readIf (presenceBit p 0) readU8 bs
  let (gain, bs) ← readIf (presenceBit p 1) readU8 bs
  let (lockWindow, bs) ← readIf (presenceBit p 2) readU8 bs
  let (lockCount, bs) ← readIf (presenceBit p 3) readU8 bs
  let (unlockCount, bs) ← readIf (presenceBit p 4) readU8 bs
  let (shuttleLimit, bs) ← readIf (presenceBit p 5) readU16 bs
  let (lag, bs) ← readIf (presenceBit p 6) readI8 bs
  let (editDelay, bs) ← readIf (presenceBit p 7) readU8 bs
  let (faultLimit, bs) ← readIf (presenceBit p 8) readU8 bs
  let (ctlEnable, bs) ← readIf (presenceBit p 9) readU8 bs
  if p < 1024 && bs.isEmpty then
    some { mode, gain, lockWindow, lockCount, unlockCount, shuttleLimit, lag, editDelay, faultLimit, ctlEnable }
  else none

/-- The parameters of SET RUN PARAMETERS: the presence field, one byte, and the parameters whose bits are set. -/
def readRunParameters (bs : List Byte) : Option Request := do
  let (p, bs) ← readU8 bs
  let (preroll, bs) ← readIf (presenceBit p 0) readU16 bs
  let (postroll, bs) ← readIf (presenceBit p 1) readU16 bs
  let (cueTimeout, bs) ← readIf (presenceBit p 2) readU16 bs
  let (syncMargin, bs) ← readIf (presenceBit p 3) readU16 bs
  if p < 16 && bs.isEmpty then some (.setRunParameters preroll postroll cueTimeout syncMargin) else none

/-- The scope of RUN: SINGLE with a handle, or RANGE with two labels; any other scope gives no layout (R182). -/
def readScope : List Byte → Option ScopeBytes
  | b :: rest =>
    match b.toNat with
    | 0 => (whole (readU16 rest)).map .single
    | 1 => do
      let (first, bs) ← readLabel rest
      (whole (readLabel bs)).map (.range first)
    | _ => none
  | [] => none

/-- Edit mode, handle and a signed count of four bytes (TRIM IN, TRIM OUT). -/
def readModeHandleDelta (bs : List Byte) : Option (EditMode × Nat × Int) := do
  let (mode, bs) ← readEditMode bs
  let (handle, bs) ← readU16 bs
  let delta ← whole (readI32 bs)
  some (mode, handle, delta)

/-- A request that carries no parameters. -/
def bare (params : List Byte) (r : Request) : Option Request := if params.isEmpty then some r else none

/-- A request whose one parameter is a machine. -/
def ofMachine (params : List Byte) (f : MachineId → Request) : Option Request := (whole (readMachine params)).map f

/-- A request whose one parameter is two bytes. -/
def ofU16 (params : List Byte) (f : Nat → Request) : Option Request := (whole (readU16 params)).map f

/-- A request whose one parameter is one byte. -/
def ofU8 (params : List Byte) (f : Nat → Request) : Option Request := (whole (readU8 params)).map f

/-- A request that carries two bytes, each an element of its own. -/
def ofTwoBytes (params : List Byte) (f : Nat → Nat → Request) : Option Request := do
  let (a, bs) ← readU8 params
  (whole (readU8 bs)).map (f a)

/-- A request that carries a label and a track. -/
def ofLabelTrack (params : List Byte) (f : Label → Nat → Request) : Option Request := do
  let (l, bs) ← readLabel params
  (whole (readU8 bs)).map (f l)

/-- The form stage (R182 stage 1): the request a message's code and parameters lay out, or none, which is answered
BAD_REQUEST. -/
def formRequest (q : RequestMessage) : Option Request :=
  match q.code.toNat with
  | 0x01 => bare q.params .readStatus
  | 0x02 => bare q.params .restart
  | 0x08 => (whole (readLabel q.params)).map .setOrigin
  | 0x10 => do
    let (mode, bs) ← readEditMode q.params
    (readRecordBlock bs).map (.add mode)
  | 0x11 => (readModeHandleDelta q.params).map (fun r => .trimIn r.1 r.2.1 r.2.2)
  | 0x12 => (readModeHandleDelta q.params).map (fun r => .trimOut r.1 r.2.1 r.2.2)
  | 0x13 => do
    let (mode, bs) ← readEditMode q.params
    let (handle, bs) ← readU16 bs
    let (source, bs) ← readU8 bs
    (whole (readI32 bs)).map (.slip mode handle source)
  | 0x14 => do
    let (handle, bs) ← readU16 q.params
    (whole (readI32 bs)).map (.trimTransition handle)
  | 0x15 => do
    let (handle, bs) ← readU16 q.params
    (whole (readI16 bs)).map (.setSplit handle)
  | 0x16 => do
    let (mode, bs) ← readEditMode q.params
    let (handle, bs) ← readU16 bs
    (whole (readLabel bs)).map (.move mode handle)
  | 0x17 => do
    let (mode, bs) ← readEditMode q.params
    (whole (readU16 bs)).map (.delete mode)
  | 0x18 => ofU16 q.params .readEvent
  | 0x19 => ofU16 q.params .readOrdinal
  | 0x1a => ofU16 q.params .next
  | 0x1b => ofU16 q.params .previous
  | 0x1c => bare q.params .count
  | 0x1d => ofLabelTrack q.params .findAt
  | 0x1e => ofLabelTrack q.params .matchFrame
  | 0x1f => bare q.params .clearList
  | 0x20 => do
    let (m, bs) ← readMachine q.params
    let (action, bs) ← readU8 bs
    (readConfigureParams bs).map (.configureMachine m action)
  | 0x21 =>
    match q.params with
    | [b] => if b.toNat = 255 then some (.setRecorder none) else (Unit8.ofNat? b.toNat).map (fun m => .setRecorder (some m))
    | _ => none
  | 0x22 => ofU8 q.params .setStandard
  | 0x23 => ofMachine q.params .readMachine
  | 0x24 => ofMachine q.params .stop
  | 0x25 => ofMachine q.params .play
  | 0x26 => do
    let (m, bs) ← readMachine q.params
    (whole (readI16 bs)).map (.shuttle m)
  | 0x27 => do
    let (m, bs) ← readMachine q.params
    (whole (readLabel bs)).map (.locate m)
  | 0x28 => do
    let (f, bs) ← readMachine q.params
    let (l, bs) ← readMachine bs
    (whole (readI32 bs)).map (.follow f l)
  | 0x29 => ofMachine q.params .unfollow
  | 0x2a => ofMachine q.params .markIn
  | 0x2b => ofMachine q.params .markOut
  | 0x2c => ofMachine q.params .clearMarks
  | 0x30 => do
    let (mode, bs) ← readU8 q.params
    (readScope bs).map (.run mode)
  | 0x31 => bare q.params .hold
  | 0x32 => bare q.params .abort
  | 0x33 => bare q.params .resumeRetry
  | 0x34 => bare q.params .resumeSkip
  | 0x35 => bare q.params .resetRun
  | 0x36 => bare q.params .readRun
  | 0x37 => readRunParameters q.params
  | 0x38 => ofU8 q.params .select
  | 0x39 => ofU16 q.params .readEffects
  | 0x3c => ofTwoBytes q.params .setCueLine
  | 0x3d => ofTwoBytes q.params .fire
  | 0x3e => ofU8 q.params .readCueLine
  | _ => none

/-! ### Answers -/

/-- What the owner of a request returns: the state after it, the result and the reply's data. -/
structure Answer where
  state : State
  result : Result
  data : List Byte

/-- A refusal: its result and the handle, track and machine its rule names (R183). -/
structure Refused where
  result : Result
  handle : Option Nat := none
  track : Option Track := none
  machine : Option MachineId := none
deriving DecidableEq, Repr

/-- The four bytes of every refusal's data (section 10.2). -/
def refusalData (r : Refused) : List Byte := countOrNone r.handle ++ trackOrNone r.track ++ machineOrNone r.machine

/-- A refused request changes nothing (R182). -/
def refuse (s : State) (r : Refused) : Answer := ⟨s, r.result, refusalData r⟩

/-- A refusal that names nothing. -/
def refuseWith (s : State) (r : Result) : Answer := refuse s { result := r }

/-- OK, or ADJUSTED when a dropped label was advanced (R7). -/
def okOr (adjusted : Bool) : Result := if adjusted then .adjusted else .ok

end Sys2Proof.Machine
end

