-- ==== Sys2Proof/Machine/Frames.lean ====
section
/-! DEFINITION. Deck-link frames: the request frames the part sends (R72, R73, R198), the deck label (R199), and how the
characters of a reply are read (R72, R76). -/

namespace Sys2Proof.Machine

/-! ### Sending -/

/-- The check character: the complement of the exclusive-OR of every character before it (R72). -/
def checkChar (chars : List Byte) : Byte := ~~~(chars.foldl (fun acc c => acc ^^^ c) 0#8)

/-- A frame closed by its check character. -/
def closeFrame (chars : List Byte) : List Byte := chars ++ [checkChar chars]

/-- Two decimal digits packed one per half-character, tens high (R199). -/
def packDigits (n : Nat) : List Byte := u8 (n / 10 * 16 + n % 10)

/-- A label as a deck label and deck flags: bit 1 set for field 2, other bits zero (R198, R199). -/
def deckTarget (l : Label) : List Byte :=
  packDigits l.hours ++ packDigits l.minutes ++ packDigits l.seconds ++ packDigits l.frames
    ++ u8 (if l.field = 2 then 2 else 0)

/-- The POLL frame. -/
def pollFrame : List Byte := closeFrame [0x10#8, 0x01#8]

/-- The frame of a queued request; a LOCATE target goes out as its label in the machine's mode (R73). -/
def requestFrame (mode : LabelMode) : DeckRequest → List Byte
  | .stop => closeFrame [0x20#8, 0x10#8]
  | .play => closeFrame [0x20#8, 0x11#8]
  | .shuttle v => closeFrame ([0x22#8, 0x12#8] ++ i16 v)
  | .locate target => closeFrame ([0x25#8, 0x13#8] ++ deckTarget (labelOf mode target))
  | .editOn t => closeFrame ([0x31#8, 0x20#8] ++ u8 t.code)
  | .editOff t => closeFrame ([0x31#8, 0x21#8] ++ u8 t.code)

/-! ### Receiving -/

/-- The payload of a STATUS (R74, R198): the deck label's four characters as they came, and the three deck flags read. -/
structure StatusPayload where
  transport : Transport
  hours : Byte
  minutes : Byte
  seconds : Byte
  frames : Byte
  labelValid : Bool
  fieldTwo : Bool
  parked : Bool
deriving DecidableEq, Repr

/-- What a run of reply characters amounts to (R76). -/
inductive ReplyClass where
  /-- More characters are to come. -/
  | incomplete
  | status (p : StatusPayload)
  | nakRefused
  | nakLocal
  /-- A bad lead, or a whole frame that is not well-formed: CHECK. -/
  | faulty
deriving DecidableEq, Repr

/-- The transport mode a character names. -/
def transportOf? : Nat → Option Transport
  | 0 => some .stopped | 1 => some .playing | 2 => some .shuttling | 3 => some .locating | 4 => some .parked
  | 5 => some .tapeOut
  | _ => none

/-- The lead gives the reply class, and a payload length of 11 or less (R72, R198). -/
def leadOk (lead : Byte) : Bool := lead.toNat / 16 == 8 && lead.toNat % 16 ≤ 11

/-- The characters a frame with this lead has. -/
def frameLength (lead : Byte) : Nat := lead.toNat % 16 + 3

/-- A whole frame read by its command, whose check character has matched. -/
def readWhole : List Byte → ReplyClass
  | [lead, cmd, mode, h, m, sec, fr, flags, _] =>
    if lead == 0x86#8 && cmd == 0x80#8 then
      match transportOf? mode.toNat with
      | some t =>
        .status ⟨t, h, m, sec, fr, flags.toNat.testBit 0, flags.toNat.testBit 1, flags.toNat.testBit 2⟩
      | none => .faulty
    else .faulty
  | [lead, cmd, reason, _] =>
    if lead == 0x81#8 && cmd == 0x81#8 then
      if reason == 0x01#8 then .nakRefused else if reason == 0x02#8 then .nakLocal else .faulty
    else .faulty
  | _ => .faulty

/-- The class of the characters received so far, none of which has a parity fault (R76). -/
def classify : List Byte → ReplyClass
  | [] => .incomplete
  | lead :: rest =>
    if !leadOk lead then .faulty
    else if (lead :: rest).length < frameLength lead then .incomplete
    else if (lead :: rest).length = frameLength lead
        && (lead :: rest).getLast? == some (checkChar (lead :: rest).dropLast) then readWhole (lead :: rest)
    else .faulty

/-- The number two packed digits spell; none when a half-character holds a value above 9 (R199). -/
def unpackDigits (b : Byte) : Option Nat :=
  if b.toNat / 16 ≤ 9 && b.toNat % 16 ≤ 9 then some (b.toNat / 16 * 10 + b.toNat % 16) else none

/-- The position a STATUS reports in a mode: none when its label-valid flag is clear or its label is invalid for the mode
(R8, R88, R199). -/
def statusPosition (mode : LabelMode) (p : StatusPayload) : Option Nat :=
  if !p.labelValid then none
  else
    match unpackDigits p.hours, unpackDigits p.minutes, unpackDigits p.seconds, unpackDigits p.frames with
    | some h, some m, some s, some f => deckLabel mode ⟨h, m, s, f, if p.fieldTwo then 2 else 1⟩
    | _, _, _, _ => none

end Sys2Proof.Machine
end

