-- ==== Sys2Proof/Machine/Ports.lean ====
section
/-! DEFINITION. A machine port's own operations: the request queue (R83 to R85), opening and ending an exchange (R75 to
R80, R82), and the CTL count (R87). Each is a function on one port (R92). -/

namespace Sys2Proof.Machine

/-- A motion request (R73). -/
def DeckRequest.isMotion : DeckRequest → Bool
  | .stop => true
  | .play => true
  | .shuttle _ => true
  | .locate _ => true
  | .editOn _ => false
  | .editOff _ => false

/-- An EDIT ON. -/
def DeckRequest.isEditOn : DeckRequest → Bool
  | .stop => false
  | .play => false
  | .shuttle _ => false
  | .locate _ => false
  | .editOn _ => true
  | .editOff _ => false

/-- An EDIT OFF. -/
def DeckRequest.isEditOff : DeckRequest → Bool
  | .stop => false
  | .play => false
  | .shuttle _ => false
  | .locate _ => false
  | .editOn _ => false
  | .editOff _ => true

/-- A LOCATE. -/
def DeckRequest.isLocate : DeckRequest → Bool
  | .stop => false
  | .play => false
  | .shuttle _ => false
  | .locate _ => true
  | .editOn _ => false
  | .editOff _ => false

/-! ### The request on the line -/

/-- Whether the head of the queue is on the line (R75). -/
def Port.headOnLine (p : Port) : Bool :=
  match p.exchange with
  | some x => x.onLine
  | none => false

/-- The port with its exchange no longer naming the head of the queue. -/
def Port.offLine (p : Port) : Port := { p with exchange := p.exchange.map (fun x => { x with onLine := false }) }

/-- The exchange still waits for its reply: it is being sent, or the port listens (R75 step 1). -/
def Exchange.waiting (x : Exchange) : Bool :=
  match x.progress with
  | .sending => true
  | .listening _ => true
  | .completed _ => false
  | .failed => false

/-- The port's exchange still waits for its reply. -/
def Port.waiting (p : Port) : Bool :=
  match p.exchange with
  | some x => x.waiting
  | none => false

/-- The reply characters received so far, while the port listens. -/
def Port.received (p : Port) : Option (List Byte) :=
  match p.exchange with
  | some x =>
    match x.progress with
    | .listening rx => some rx
    | .sending => none
    | .completed _ => none
    | .failed => none
  | none => none

/-- The port with its exchange brought to a progress. -/
def Port.withProgress (p : Port) (g : Progress) : Port :=
  { p with exchange := p.exchange.map (fun x => { x with progress := g }) }

/-! ### Placing requests -/

/-- The refusal of a request by the link state; none when the port is ONLINE (R71). -/
def linkRefusal : LinkState → Option Result
  | .absent => some .notConfigured
  | .online => none
  | .offline => some .offline
  | .localMode => some .localMode

/-- The queue with its motion request replaced, in its place (R84). -/
def replaceMotion (q : QueuedRequest) : List QueuedRequest → List QueuedRequest
  | [] => []
  | x :: xs => if x.request.isMotion then q :: xs else x :: replaceMotion q xs

/-- The head of the queue is a motion request. -/
def headIsMotion : List QueuedRequest → Bool
  | [] => false
  | x :: _ => x.request.isMotion

/-- A motion request is placed (R83, R84): it replaces the queued motion request, or joins the tail. -/
def Port.placeMotion (p : Port) (r : DeckRequest) : Except Result Port :=
  match linkRefusal p.link with
  | some e => .error e
  | none =>
    if p.queue.any (fun x => x.request.isMotion) then
      .ok { (if headIsMotion p.queue then p.offLine else p) with queue := replaceMotion ⟨r, none⟩ p.queue }
    else if p.queue.length < Config.portQueueCapacity then .ok { p with queue := p.queue ++ [⟨r, none⟩] }
    else .error .queueFull

/-- An edit request is placed in the ordinary way (R83). -/
def Port.placeEdit (p : Port) (q : QueuedRequest) : Except Result Port :=
  match linkRefusal p.link with
  | some e => .error e
  | none =>
    if p.queue.length < Config.portQueueCapacity then .ok { p with queue := p.queue ++ [q] } else .error .queueFull

/-- The newest request that is not an EDIT OFF is discarded, and given (R85); none when there is no such request. -/
def dropNewest : List QueuedRequest → Option (List QueuedRequest × QueuedRequest)
  | [] => none
  | x :: xs =>
    match dropNewest xs with
    | some r => some (x :: r.1, r.2)
    | none => if x.request.isEditOff then none else some (xs, x)

/-- The request on the line, as a list of one or none. -/
def Port.lineHead (p : Port) : List QueuedRequest := if p.headOnLine then p.queue.take 1 else []

/-- The queued requests behind the request on the line, every EDIT ON withdrawn (R85). -/
def Port.behindLine (p : Port) : List QueuedRequest :=
  (if p.headOnLine then p.queue.drop 1 else p.queue).filter (fun x => !x.request.isEditOn)

/-- An EDIT OFF is placed ahead by a hold (R85): the port, and the request reported LOST to make room. When nothing can be
discarded from a full queue, which the manual says cannot arise, the EDIT OFF is refused (log entry 20). -/
def Port.placeAhead (p : Port) (q : QueuedRequest) : Except Result (Port × Option QueuedRequest) :=
  match linkRefusal p.link with
  | some e => .error e
  | none =>
    if (p.lineHead ++ p.behindLine).length < Config.portQueueCapacity then
      .ok ({ p with queue := p.lineHead ++ q :: p.behindLine }, none)
    else
      match dropNewest p.behindLine with
      | some (rest, lost) => .ok ({ p with queue := p.lineHead ++ q :: rest }, some lost)
      | none => .error .queueFull

/-! ### The exchange -/

/-- The port opens an exchange at the field start with count `field`: the head of the queue when the port is ONLINE and
has one, else POLL (R75 step 2). -/
def Port.openExchange (p : Port) (mode : LabelMode) (field : Nat) : Port :=
  match p.link, p.queue with
  | .online, q :: _ =>
    { p with exchange := some ⟨some q, true, requestFrame mode q.request, false, field, .sending⟩ }
  | _, _ => { p with exchange := some ⟨none, false, pollFrame, false, field, .sending⟩ }

/-- The recovery poll: a break and then POLL, with the recovery count reloaded (R82). -/
def Port.recoveryPoll (p : Port) (field : Nat) : Port :=
  { p with recovery := Config.recoveryFields, exchange := some ⟨none, false, pollFrame, true, field, .sending⟩ }

/-- The request on the line taken out of the queue (R77, R78, R80). -/
def Port.removeOnLine (p : Port) : Port :=
  if p.headOnLine then { p.offLine with queue := p.queue.drop 1 } else p

/-- The request on the line, if any. -/
def Port.onLineRequest (p : Port) : Option QueuedRequest := p.lineHead.head?

/-- The exchange completed with the error count cleared (R77 to R79). -/
def Port.completed (p : Port) : Port := { p with errors := 0 }.withProgress (.completed false)

/-- The queue flushed and the exchange no longer naming its head (R79, R81). -/
def Port.flushed (p : Port) : Port := { p.offLine with queue := [] }

/-! ### CTL (R87, R88, R90) -/

/-- A CTL pulse counted: the counter saturates at −32,768 and +32,767, the tally at 256 (R87). That a pulse of the other
direction moves a counter at an end back inside is the model's choice (log entry 42). -/
def Port.countPulse (p : Port) (forward : Bool) : Port :=
  { p with
    ctlCounter := if forward then min 32767 (p.ctlCounter + 1) else max (-32768) (p.ctlCounter - 1)
    ctlTally := min Config.ctlFrameLimit (p.ctlTally + 1) }

/-- A TC update: the anchor is the new estimate, the counter and tally 0 (R88). -/
def Port.anchored (p : Port) (position : Nat) : Port :=
  { p with ctlAnchor := some position, ctlCounter := 0, ctlTally := 0 }

/-- The counter and tally set to 0. -/
def Port.ctlCleared (p : Port) : Port := { p with ctlCounter := 0, ctlTally := 0 }

/-- The anchor removed as well (R90). -/
def Port.anchorCleared (p : Port) : Port := { p.ctlCleared with ctlAnchor := none }

end Sys2Proof.Machine
end

