-- ==== Sys2Proof/Machine/Store.lean ====
section
/-! DEFINITION. The Event Store's shared operations: spans and keys (R26, R33), the validity test (R27, R28), the state
changes asked for by the run (R31), renumbering and the cursor (R35 to R37), the lookups' search (R41, R43), and a change
request as one step: nudge, tests, ripple and write (R46 to R54, R59, R67). -/

namespace Sys2Proof.Machine

/-! ### Spans, extent and key (R26, R33) -/

/-- The split, a missing one taken as 0. -/
def Record.splitOf (r : Record) : Int := r.split.getD 0

/-- min(0, split). -/
def Record.lead (r : Record) : Int := min 0 r.splitOf

/-- The record out. -/
def Record.recordOut (r : Record) (day : Nat) : Nat := wrap day ((r.recordIn : Int) + (r.duration : Int))

/-- The start, the first position of the earliest span. -/
def Record.start (r : Record) (day : Nat) : Nat := wrap day ((r.recordIn : Int) + r.lead)

/-- The extent. -/
def Record.extent (r : Record) : Nat := ((r.duration : Int) - r.lead).toNat

/-- The start of a track's span. -/
def Record.trackStart (r : Record) (day : Nat) : Track → Nat
  | .v => r.recordIn
  | .a1 => wrap day ((r.recordIn : Int) + r.splitOf)
  | .a2 => wrap day ((r.recordIn : Int) + r.splitOf)
  | .a3 => wrap day ((r.recordIn : Int) + r.splitOf)
  | .a4 => wrap day ((r.recordIn : Int) + r.splitOf)

/-- The timeline offset of a record position (R13). -/
def offsetOf (s : State) (position : Nat) : Nat := offsetFrom (dayRec s) s.timeline.origin position

/-- The start offset. -/
def startOffset (s : State) (r : Record) : Nat := offsetOf s (r.start (dayRec s))

/-- The end offset. -/
def endOffset (s : State) (r : Record) : Nat := startOffset s r + r.extent

/-- A track's span as an interval of timeline offsets, for a track of the event. -/
def spanOn (s : State) (r : Record) (t : Track) : Option (Nat × Nat) :=
  if r.tracks.has t then some (offsetOf s (r.trackStart (dayRec s) t), endOffset s r) else none

/-- Some offset lies in both intervals. -/
def intervalsMeet (a b : Nat × Nat) : Bool := max a.1 b.1 < min a.2 b.2

/-- The spans of two records on a track overlap (R26). -/
def overlapOn (s : State) (a b : Record) (t : Track) : Bool :=
  match spanOn s a t, spanOn s b t with
  | some x, some y => intervalsMeet x y
  | some _, none => false
  | none, _ => false

/-- A record position lies in a record's span on a track (R26). -/
def liesIn (s : State) (r : Record) (t : Track) (position : Nat) : Bool :=
  match spanOn s r t with
  | some x => x.1 ≤ offsetOf s position && offsetOf s position < x.2
  | none => false

/-- The key of one event comes before the key of another (R33). -/
def keyBefore (s : State) (a b : Event) : Bool :=
  startOffset s a.record < startOffset s b.record
    || (startOffset s a.record == startOffset s b.record && a.insertion < b.insertion)

/-- An event put at its place in a list that stands in the list order. -/
def insertByKey (s : State) (e : Event) : List Event → List Event
  | [] => [e]
  | x :: xs => if keyBefore s e x then e :: x :: xs else x :: insertByKey s e xs

/-- Events brought into the list order (R33). -/
def listOrder (s : State) : List Event → List Event
  | [] => []
  | e :: es => insertByKey s e (listOrder s es)

/-! ### Finding events -/

/-- The live event a handle names. -/
def findEvent (s : State) (handle : Nat) : Option Event := s.store.events.find? (fun e => e.handle == handle)

/-- The position in a list of the first element that passes a test. -/
def indexWhere {α : Type} (p : α → Bool) : List α → Option Nat
  | [] => none
  | x :: xs => if p x then some 0 else (indexWhere p xs).map (· + 1)

/-- The ordinal of the event a handle names (R33). -/
def ordinalOf (s : State) (handle : Nat) : Option Nat := indexWhere (fun e => e.handle == handle) s.store.events

/-- The event that covers a record position on a track (R41). -/
def coveringEvent (s : State) (t : Track) (position : Nat) : Option Event :=
  s.store.events.find? (fun e => liesIn s e.record t position)

/-- The first handle from k on, of n handles, that no live event has. -/
def freeFrom (events : List Event) : Nat → Nat → Option Nat
  | 0, _ => none
  | n + 1, k => if events.any (fun e => e.handle == k) then freeFrom events n (k + 1) else some k

/-- The lowest-numbered free slot (R32). -/
def lowestFree (s : State) : Option Nat := freeFrom s.store.events Config.slotCount 0

/-- A live event references a machine: as a source, or as the recorder (R28). -/
def anyReferences (s : State) (m : MachineId) : Bool :=
  s.store.events.any (fun e =>
    e.record.source1.machine == m || (match e.record.source2 with | some x => x.machine == m | none => false)
      || s.recorder == some m)

/-! ### The validity test (R27, R28) -/

/-- A range test on a natural number, both ends included. -/
def within (lo hi n : Nat) : Bool := lo ≤ n && n ≤ hi

/-- A range test on an integer, both ends included. -/
def withinInt (lo hi x : Int) : Bool := lo ≤ x && x ≤ hi

/-- The kinds that have two sources and a transition. -/
def Kind.twoSources : Kind → Bool
  | .cut => false
  | .mix => true
  | .wipe => true
  | .box => true

/-- The kinds that have the wipe. -/
def Kind.hasWipe : Kind → Bool
  | .cut => false
  | .mix => false
  | .wipe => true
  | .box => true

/-- Group 1, form (R27). -/
def formTest (r : Record) : Bool :=
  !r.tracks.isEmpty && r.source2.isSome == r.kind.twoSources && r.transition.isSome == r.kind.twoSources
    && r.wipe.isSome == r.kind.hasWipe && r.box.isSome == (r.kind == .box)
    && (r.split.isNone || (r.tracks.v && r.tracks.hasAudio)) && (r.rate.isNone || r.kind == .cut)
    && r.cues.length ≤ 4

/-- Group 2, ranges (R27). -/
def rangeTest (s : State) (r : Record) : Bool :=
  within 1 (dayRec s - 1) r.duration
    && (match r.transition with | some d => within 1 999 d && d ≤ r.duration | none => true)
    && (match r.wipe with
        | some w => withinInt (-720) 720 w.sx && within 1 s.timeline.standard.lines w.sy
        | none => true)
    && (match r.box with
        | some b => b.kx1 ≤ 720 && b.kx0 < b.kx1 && b.ky1 ≤ s.timeline.standard.lines && b.ky0 < b.ky1 && b.mask ≤ 15
        | none => true)
    && (match r.split with | some x => withinInt (-255) 255 x && x < (r.duration : Int) | none => true)
    && (match r.rate with | some v => within 32 768 v | none => true)
    && r.cues.all (fun c => withinInt (-1800) 1800 c.offset && within 1 255 c.width)

/-- Group 4, the sources are configured (R28). -/
def sourcesConfigured (s : State) (r : Record) : Bool :=
  (s.machine r.source1.machine).configured
    && (match r.source2 with | some x => (s.machine x.machine).configured | none => true)

/-- Group 5, the machines are distinct (R28). -/
def machinesDistinct (s : State) (r : Record) : Bool :=
  s.recorder != some r.source1.machine
    && (match r.source2 with
        | some x => s.recorder != some x.machine && r.source1.machine != x.machine
        | none => true)

/-- Group 7, containment in the day from the origin (R28). -/
def contained (s : State) (r : Record) : Bool := endOffset s r ≤ dayRec s

/-- The validity test: the result of the first group the record fails, or none (R27, R28). -/
def validity (s : State) (r : Record) : Option Result :=
  if !formTest r then some .badRequest
  else if !rangeTest s r then some .range
  else if s.recorder.isNone then some .noRecorder
  else if !sourcesConfigured s r then some .notConfigured
  else if !machinesDistinct s r then some .sameMachine
  else if r.colour && r.rate.isSome then some .conflict
  else if !contained s r then some .range
  else none

/-! ### State changes asked for by the run (R31) -/

/-- The store with the event of a handle changed; its key and place stay. -/
def updateEvent (s : State) (handle : Nat) (f : Event → Event) : State :=
  { s with store := { s.store with events := s.store.events.map (fun e => if e.handle == handle then f e else e) } }

/-- The event with a new state and flags. -/
def Event.withState (e : Event) (st : EventState) (fl : EventFlags) : Event := { e with state := st, flags := fl }

/-- Restoration after recording, and at RESTART: OPEN with INCOMPLETE set and CHANGED kept (R31). -/
def Event.leftIncomplete (e : Event) : Event := e.withState .opened { e.flags with incomplete := true }

/-- Completion: PERFORMED with both flags clear (R31). -/
def Event.completed (e : Event) : Event := e.withState .performed ⟨false, false⟩

/-! ### The cursor, renumbering and the empty list (R35 to R37) -/

/-- A key is after the cursor (R37). -/
def afterCursor (c : Cursor) (offset insertion : Nat) : Bool :=
  c.offset < offset
    || (c.offset == offset && (match c.insertion with | some i => i < insertion | none => true))

/-- An event is after the cursor. -/
def eventAfter (s : State) (c : Cursor) (e : Event) : Bool := afterCursor c (startOffset s e.record) e.insertion

/-- Every event of a list numbered by its place from k on. -/
def numberFrom : Nat → List Event → List Event
  | _, [] => []
  | k, e :: es => { e with insertion := k } :: numberFrom (k + 1) es

/-- The cursor's insertion number after a renumbering: j − 1, or absent when j is 0, where j events were not after it. -/
def renumberedCursor (s : State) (events : List Event) (c : Cursor) : Cursor :=
  match (events.filter (fun e => !eventAfter s c e)).length with
  | 0 => { c with insertion := none }
  | j + 1 => { c with insertion := some j }

/-- Renumbering: every event is given its ordinal, the counter the number of events, and the cursor is rewritten (R36,
R37). -/
def renumber (s : State) : State :=
  { s with
    store := { events := numberFrom 0 s.store.events, counter := s.store.events.length }
    run := { s.run with cursor := renumberedCursor s s.store.events s.run.cursor } }

/-- When the list is empty, the counter is 0 and the cursor's insertion number absent (R35, R37). -/
def whenEmptied (s : State) : State :=
  if s.store.events.isEmpty then
    { s with
      store := { s.store with counter := 0 }
      run := { s.run with cursor := { s.run.cursor with insertion := none } } }
  else s

/-! ### The take search (R43) -/

/-- The states a run of a mode takes (R29, R43). -/
def eligible (mode : RunMode) (st : EventState) : Bool :=
  match mode, st with
  | .record, .opened => true
  | .preview, .opened => true
  | .preview, .performed => true
  | .record, .performed => false
  | .record, .running => false
  | .preview, .running => false

/-- The first eligible event in the list order after the cursor and within the range (R43). -/
def takeSearch (s : State) (mode : RunMode) (first last : Nat) (c : Cursor) : Option Event :=
  s.store.events.find? (fun e =>
    eventAfter s c e && first ≤ startOffset s e.record && startOffset s e.record ≤ last && eligible mode e.state)

/-! ### The colour nudge (R51) -/

/-- The nudge of one source of a record; 0 with colour framing off. -/
def sourceNudge (s : State) (r : Record) (x : Source) : Nat :=
  if r.colour then nudgeOf s.timeline.standard.colourPeriod r.recordIn x.sourceIn else 0

/-- A source moved later by its nudge. -/
def nudgeSource (s : State) (r : Record) (x : Source) : Source :=
  { x with sourceIn := wrap (dayOf s x.machine) ((x.sourceIn : Int) + (sourceNudge s r x : Int)) }

/-- The record with each of its sources nudged. -/
def nudged (s : State) (r : Record) : Record :=
  if r.colour then { r with source1 := nudgeSource s r r.source1, source2 := r.source2.map (nudgeSource s r) } else r

/-- The nudges of a record's sources, in their order. -/
def nudgesOf (s : State) (r : Record) : List Nat :=
  sourceNudge s r r.source1 :: (match r.source2 with | some x => [sourceNudge s r x] | none => [])

/-! ### Ripple (R53, R54) -/

/-- The ripple a request asks for: its ripple point and its requested shift. -/
structure RippleRequest where
  point : Nat
  shift : Int
deriving DecidableEq, Repr

/-- The moving set: every live event but the target that starts at or beyond the ripple point, in the list order. -/
def movingSet (s : State) (target : Option Nat) (point : Nat) : List Event :=
  s.store.events.filter (fun e => some e.handle != target && point ≤ startOffset s e.record)

/-- A requested shift rounded to a multiple of P: a positive one up, a negative one toward zero. -/
def roundShift (period : Nat) (shift : Int) : Int :=
  if 0 ≤ shift then (shift + (period : Int) - 1) / (period : Int) * (period : Int)
  else -((-shift) / (period : Int) * (period : Int))

/-- The ripple shift (R53). -/
def rippleShift (s : State) (moving : List Event) (requested : Int) : Int :=
  if moving.any (fun e => e.record.colour) then roundShift s.timeline.standard.colourPeriod requested else requested

/-- A record moved by a shift: its record in alone changes (R54). -/
def shiftRecord (day : Nat) (shift : Int) (r : Record) : Record :=
  { r with recordIn := wrap day ((r.recordIn : Int) + shift) }

/-- The event would leave the day (R54 test 3). -/
def leavesDay (s : State) (shift : Int) (e : Event) : Bool :=
  (startOffset s e.record : Int) + shift < 0 || (endOffset s e.record : Int) + shift > (dayRec s : Int)

/-- Step 10 of R47: the three tests of R54 on the moving set. -/
def rippleTest (s : State) (moving : List Event) (shift : Int) : Option Refused :=
  match moving.find? (fun e => e.state == .running) with
  | some e => some { result := .inRun, handle := some e.handle }
  | none =>
    match moving.find? (fun e => e.state == .performed) with
    | some e => some { result := .performed, handle := some e.handle }
    | none =>
      match moving.find? (leavesDay s shift) with
      | some e => some { result := .range, handle := some e.handle }
      | none => none

/-! ### The overlap test (R52) -/

/-- The first track on which an unchanged record overlaps one of the changed records. -/
def firstOverlap (s : State) (changed : List Record) (r : Record) : Option Track :=
  Track.all.find? (fun t => changed.any (fun c => overlapOn s c r t))

/-- Step 11 of R47: the first unchanged event in the list order that overlaps a changed event, and the first such track. -/
def overlapTest (s : State) (changed : List Record) : List Event → Option Refused
  | [] => none
  | e :: es =>
    match firstOverlap s changed e.record with
    | some t => some { result := .overlap, handle := some e.handle, track := some t }
    | none => overlapTest s changed es

/-! ### A change request as one step (R46, R47 steps 8 to 11) -/

/-- A change as it stands after step 7: the target (none for ADD), the nudged resulting record (none for DELETE) and the
ripple. -/
structure Change where
  target : Option Event
  result : Option Record
  ripple : Option RippleRequest

/-- An accepted change: the state, and the ripple shift and events moved. -/
structure Accepted where
  state : State
  /-- The handle of the target. -/
  handle : Nat
  shift : Int
  moved : Nat
  /-- The ripple shift differs from the requested shift. -/
  rounded : Bool

/-- The events the ripple moves, with the shift: none when the shift is 0 or the moving set is empty (R54). -/
def rippleMoves (s : State) (c : Change) : List Event × Int :=
  match c.ripple with
  | none => ([], 0)
  | some rp =>
    if rippleShift s (movingSet s (c.target.map Event.handle) rp.point) rp.shift = 0 then ([], 0)
    else
      (movingSet s (c.target.map Event.handle) rp.point,
        rippleShift s (movingSet s (c.target.map Event.handle) rp.point) rp.shift)

/-- The ripple shift the reply carries, and whether it differs from the requested one. -/
def reportedShift (s : State) (c : Change) : Int × Bool :=
  match c.ripple with
  | none => (0, false)
  | some rp =>
    (rippleShift s (movingSet s (c.target.map Event.handle) rp.point) rp.shift,
      rippleShift s (movingSet s (c.target.map Event.handle) rp.point) rp.shift != rp.shift)

/-- Steps 8 to 11 of R47 on a change (R54, R52); `cuesKnown` is the part of group 1 that concerns an ADD's cue bytes. -/
def changeTests (s : State) (cuesKnown : Bool) (c : Change) : Option Refused :=
  match (if cuesKnown then c.result.bind (validity s) else some .badRequest) with
  | some r => some { result := r }
  | none =>
    if c.target.isNone && (lowestFree s).isNone then some { result := .listFull }
    else
      match (if (rippleMoves s c).1.isEmpty then none else rippleTest s (rippleMoves s c).1 (rippleMoves s c).2) with
      | some r => some r
      | none =>
        overlapTest s
          (c.result.toList ++ (rippleMoves s c).1.map (fun e => shiftRecord (dayRec s) (rippleMoves s c).2 e.record))
          (s.store.events.filter (fun e =>
            some e.handle != c.target.map Event.handle && !(rippleMoves s c).1.any (fun m => m.handle == e.handle)))

/-- The live events other than the target, those of the ripple moved by the shift (R54). -/
def survivors (s : State) (c : Change) : List Event :=
  (s.store.events.filter (fun e => some e.handle != c.target.map Event.handle)).map (fun e =>
    if (rippleMoves s c).1.any (fun m => m.handle == e.handle) then
      { e with record := shiftRecord (dayRec s) (rippleMoves s c).2 e.record }
    else e)

/-- A changed target as written: a PERFORMED one is demoted (R29, R50). -/
def rewritten (e : Event) (r : Record) : Event :=
  match e.state with
  | .performed => { e with record := r, state := .opened, flags := { e.flags with changed := true } }
  | .opened => { e with record := r }
  | .running => { e with record := r }

/-- The list written in its order. -/
def writeEvents (s : State) (events : List Event) : State :=
  { s with store := { s.store with events := listOrder s events } }

/-- A new event in a slot, with the counter's value as its insertion number (R59). -/
def newEvent (s : State) (handle : Nat) (r : Record) : Event :=
  { handle, insertion := s.store.counter, state := .opened, flags := ⟨false, false⟩, record := r }

/-- The insertion counter after an ADD: one more, or a renumbering when it held its maximum (R35). -/
def advanceCounter (s : State) : State :=
  if s.store.counter + 1 < Config.wordLimit then { s with store := { s.store with counter := s.store.counter + 1 } }
  else renumber s

/-- The write of an accepted change: an ADD (R59), a DELETE (R67), or the change of one event, which is not written when
the list would stand as it was (R49). -/
def writeChange (s : State) (c : Change) : State :=
  match c.target, c.result with
  | none, some r =>
    match lowestFree s with
    | some h => advanceCounter (writeEvents s (newEvent s h r :: survivors s c))
    | none => s
  | some _, none => whenEmptied (writeEvents s (survivors s c))
  | some e, some r =>
    if e.record = r ∧ (rippleMoves s c).1 = [] then s else writeEvents s (rewritten e r :: survivors s c)
  | none, none => s

/-- The handle of the target of a change: for ADD, the slot the new event takes. -/
def changeHandle (s : State) (c : Change) : Nat :=
  match c.target with
  | some e => e.handle
  | none => (lowestFree s).getD 0

/-- A change request from step 8 on: refused by the first test that fails, or written as a whole (R46). -/
def applyChange (s : State) (cuesKnown : Bool) (c : Change) : Except Refused Accepted :=
  match changeTests s cuesKnown c with
  | some r => .error r
  | none =>
    .ok { state := writeChange s c, handle := changeHandle s c, shift := (reportedShift s c).1,
          moved := (rippleMoves s c).1.length, rounded := (reportedShift s c).2 }

/-! ### CLEAR LIST and RESTART -/

/-- Every event removed (R44). -/
def clearStore (s : State) : State := whenEmptied { s with store := { s.store with events := [] } }

/-- The event is RUNNING. -/
def Event.isRunning (e : Event) : Bool := e.state == .running

/-- A RUNNING event made OPEN with INCOMPLETE set (R31, RESTART). -/
def reopenRunning (s : State) : State :=
  { s with store := { s.store with events := s.store.events.map (fun e => if e.isRunning then e.leftIncomplete else e) } }

/-- The EVENT_STATE notice of an event as it stands. -/
def eventStateNotice (e : Event) : Notice := .eventState e.handle e.state e.flags

/-- The Event Store at RESTART: a RUNNING event is made OPEN with INCOMPLETE set (R31, R143 step 4), and its change raises
EVENT_STATE, which R193 counts among the notices of the work and discards (log entry 43). -/
def restartStore (s : State) : State :=
  (s.store.events.filter Event.isRunning).foldl (fun t e => raiseNotice t (eventStateNotice e.leftIncomplete))
    (reopenRunning s)

end Sys2Proof.Machine
end

