-- ==== Sys2Proof/Machine/Control.lean ====
section
/-! DEFINITION. The Machine Controller's shared operations: placing motion requests (R83, R84), locates (R102 to R104),
follows (R105 to R107), claims and releases (R108 to R110), the servo and the lock count (R111 to R114), configuration
(R90, R95, R96) and the STOP input (R116). -/

namespace Sys2Proof.Machine

/-! ### Placing motion requests -/

/-- A motion request placed at a machine's port; a refusal changes nothing (R83, R84). -/
def placeMotion (s : State) (m : MachineId) (r : DeckRequest) : Except Result State :=
  match (s.port m).placeMotion r with
  | .ok p => .ok (s.setPort m p)
  | .error e => .error e

/-- A record field set without a change of control state or claim. -/
def updateMachine (s : State) (m : MachineId) (f : MachineRec → MachineRec) : State := s.setMachine m (f (s.machine m))

/-- A motion request placed with its speed as the last speed; a refusal is passed over (R107, R110, R112, R116). -/
def tryMotion (s : State) (m : MachineId) (r : DeckRequest) (speed : Int) : State :=
  match placeMotion s m r with
  | .ok t => updateMachine t m (fun x => { x with lastSpeed := some speed })
  | .error _ => s

/-- STOP placed; one that the port does not hold is not retried. -/
def tryStop (s : State) (m : MachineId) : State := tryMotion s m .stop 0

/-- The lock counts set to 0. -/
def MachineRec.countsCleared (x : MachineRec) : MachineRec := { x with inWindow := 0, outWindow := 0 }

/-- The machine has a console-set leader (R93). -/
def MachineRec.following (x : MachineRec) : Bool :=
  match x.leader with
  | .noLeader => false
  | .timeline => false
  | .machine _ _ => true

/-! ### Locates (R102 to R104) -/

/-- A locate is begun (R102): the LOCATE is placed, and once the port holds it the record is LOCATING. -/
def startLocate (s : State) (m : MachineId) (target : Nat) (owner : LocateOwner) : Except Result State :=
  match placeMotion s m (.locate target) with
  | .ok t =>
    .ok (changeMachine t m (fun x =>
      { x.countsCleared with
        control := .locating, locate := some ⟨target, owner, false, 0⟩, lastSpeed := none }))
  | .error e => .error e

/-- A run locate (R102): refused STOPPED while the STOP input is asserted. -/
def startRunLocate (s : State) (m : MachineId) (target : Nat) : Except Result State :=
  if s.stopAsserted then .error .stopped else startLocate s m target .run

/-- The end of a failed locate as it reaches the outside: LOCATE_FAILED for the console's, a report for the run's (R104). -/
def reportLocateFailure (s : State) (m : MachineId) (l : Locate) (target : Label) (reason : LocateReason) :
    State × List RunReport :=
  match l.owner with
  | .console => (raiseNotice s (.locateFailed m target reason), [])
  | .run => (s, [.locateFailed m reason])

/-- A locate in progress fails (R104): the machine goes FREE with its locate record cleared, MACHINE_STATE is raised, then
the failure is reported. A machine that is not LOCATING is left as it stands. -/
def failLocate (s : State) (m : MachineId) (reason : LocateReason) : State × List RunReport :=
  match (s.machine m).control, (s.machine m).locate with
  | .locating, some l =>
    reportLocateFailure (changeMachine s m (fun x => { x with control := .free, locate := none })) m l
      (machineLabel s m l.target) reason
  | _, _ => (s, [])

/-- The outcome ANSWERED of a LOCATE sets the acknowledged flag of the locate in progress (R103). -/
def acknowledgeLocate (s : State) (m : MachineId) : State :=
  match (s.machine m).control, (s.machine m).locate with
  | .locating, some l => updateMachine s m (fun x => { x with locate := some { l with acknowledged := true } })
  | _, _ => s

/-- A mismatch (R104): the LOCATE is placed again, or the locate fails at the third, or when the port refuses it. -/
def locateMismatch (s : State) (m : MachineId) (l : Locate) : State × List RunReport :=
  if l.mismatches + 1 < 3 then
    match placeMotion s m (.locate l.target) with
    | .ok t =>
      (updateMachine t m (fun x =>
        { x with locate := some { l with acknowledged := false, mismatches := l.mismatches + 1 } }), [])
    | .error _ => failLocate s m .mismatch
  else failLocate s m .mismatch

/-- The machine is parked on target (R103). -/
def parkOnTarget (s : State) (m : MachineId) (l : Locate) (position : Nat) : State :=
  match l.owner with
  | .console =>
    raiseNotice (changeMachine s m (fun x => { x with control := .parked, locate := none }))
      (.locateDone m (machineLabel s m l.target) (machineLabel s m position))
  | .run => changeMachine s m (fun x => { x with control := .parked, locate := none })

/-- The parking test on an applied STATUS (R103); `update` is the TC update it gave, if any. -/
def parkingTest (s : State) (m : MachineId) (transport : Transport) (parked : Bool) (update : Option Nat) :
    State × List RunReport :=
  match (s.machine m).control, (s.machine m).locate with
  | .locating, some l =>
    if !l.acknowledged then (s, [])
    else if transport = .tapeOut then failLocate s m .tapeOut
    else if !parked then (s, [])
    else
      match update with
      | some p =>
        if (foldDiff (dayOf s m) p l.target).natAbs ≤ (s.machine m).params.lockWindow then (parkOnTarget s m l p, [])
        else locateMismatch s m l
      | none => locateMismatch s m l
  | _, _ => (s, [])

/-! ### Follows (R105 to R107) -/

/-- A console-set leader removed: leader NONE, FREE, lock counts 0 (R107). -/
def dropLeader (s : State) (m : MachineId) : State :=
  changeMachine s m (fun x => { x.countsCleared with leader := .noLeader, control := .free })

/-- A follow cancelled, with STOP placed (R107). -/
def cancelFollow (s : State) (m : MachineId) : State := dropLeader (tryStop s m) m

/-- Every follow in which a machine is follower or leader is cancelled (R96). That they are cancelled in the order M0 to M7 of
the followers is the model's choice: no rule orders their notices (log entry 49). -/
def cancelFollowsOf (s : State) (m : MachineId) : State :=
  Unit8.all.foldl (fun t f =>
    match (t.machine f).leader with
    | .machine l _ => if f = m ∨ l = m then cancelFollow t f else t
    | .noLeader => t
    | .timeline => t) s

/-- The walk along the leader chain from a machine reaches the follower within a number of steps (R106); the follower's old
relation is left out of the walk, which ends at it. -/
def chainReaches (s : State) (follower : MachineId) : Nat → MachineId → Bool
  | 0, m => m == follower
  | n + 1, m =>
    m == follower
      || (match (s.machine m).leader with
          | .machine l _ => chainReaches s follower n l
          | .noLeader => false
          | .timeline => false)

/-! ### Claims and releases (R108, R110) -/

/-- A machine is claimed by the run (R108): a console locate in progress fails with reason CLAIMED. -/
def claimMachine (s : State) (m : MachineId) : State :=
  match (s.machine m).control, (s.machine m).locate with
  | .locating, some l =>
    (reportLocateFailure (changeMachine s m (fun x => { x with claimed := true, control := .free, locate := none })) m l
      (machineLabel s m l.target) .claimed).1
  | _, _ => changeMachine s m (fun x => { x with claimed := true })

/-- The record of a released machine (R110). -/
def MachineRec.released (x : MachineRec) : MachineRec :=
  { x.countsCleared with claimed := false, leader := .noLeader, terms := none, control := .free, locate := none }

/-- A claimed machine is released, with STOP placed; one that is not claimed is left as it stands (R110). -/
def releaseMachine (s : State) (m : MachineId) : State :=
  if (s.machine m).claimed then changeMachine (tryStop s m) m MachineRec.released else s

/-- A claimed machine is given the leader TIMELINE with its target terms, and PLAY is placed (R109). -/
def chaseTimeline (s : State) (m : MachineId) (terms : Option TargetTerms) : State :=
  changeMachine (tryMotion (updateMachine s m (fun x => { x with leader := .timeline, terms := terms })) m .play 256) m
    (fun x => { x.countsCleared with control := .chasing })

/-! ### The servo (R111, R112) -/

/-- The rate of a machine's base speed: the run's target terms' for a claimed source, else 256 (R109, R112). -/
def rateOf (x : MachineRec) : Nat :=
  match x.leader, x.terms with
  | .timeline, some t => t.rate
  | .timeline, none => 256
  | .noLeader, _ => 256
  | .machine _ _, _ => 256

/-- A source's target at a timeline position: source in + ⌊j × rate / 256⌋ mod the source's day (R111). -/
def sourceTarget (s : State) (m : MachineId) (t : TargetTerms) (position : Nat) : Nat :=
  wrap (dayOf s m) ((t.sourceIn : Int) + rateFields (foldDiff (dayRec s) position t.recordIn) t.rate)

/-- The target of an evaluation; `position` is the timeline position of its field start, if it had one (R111). -/
def servoTarget (s : State) (m : MachineId) (position : Option Nat) : Option Nat :=
  match (s.machine m).leader with
  | .noLeader => none
  | .timeline =>
    match position with
    | none => none
    | some p =>
      match (s.machine m).terms with
      | none => some p
      | some t => some (sourceTarget s m t p)
  | .machine l off =>
    match (s.machine l).position with
    | some p => some (wrap (dayOf s m) ((p : Int) + off))
    | none => none

/-- The leader is moving (R112). -/
def leaderMoving (s : State) (m : MachineId) : Bool :=
  match (s.machine m).leader with
  | .noLeader => false
  | .timeline => s.timeline.clock.isSome
  | .machine l _ => (s.machine l).transport == some .playing || (s.machine l).transport == some .shuttling

/-- The machine chases: its control state is CHASING or LOCKED. -/
def MachineRec.chases (x : MachineRec) : Bool :=
  match x.control with
  | .free => false
  | .locating => false
  | .parked => false
  | .chasing => true
  | .locked => true

/-- The error e of an evaluation, or none when no evaluation is made (R111, R112 step 1). -/
def servoError (s : State) (m : MachineId) (position : Option Nat) : Option Int :=
  if s.stopAsserted || !(s.machine m).chases then none
  else
    match servoTarget s m position, (s.machine m).position with
    | some target, some p => some (fold (dayOf s m) ((target : Int) - (p : Int) - (s.machine m).params.lag))
    | some _, none => none
    | none, _ => none

/-- The speed v of an evaluation (R112 steps 2 and 3). -/
def servoSpeed (s : State) (m : MachineId) (e : Int) : Int :=
  max (-((s.machine m).params.shuttleLimit : Int))
    (min ((s.machine m).params.shuttleLimit : Int)
      ((if leaderMoving s m then (rateOf (s.machine m) : Int) else 0) + e * ((s.machine m).params.gain : Int)))

/-- The request of a speed: PLAY for exactly 256, SHUTTLE otherwise (R112 step 4). -/
def speedRequest (v : Int) : DeckRequest := if v = 256 then .play else .shuttle v

/-- The servo's request is placed; a refusal is passed over (R112 step 4). -/
def servoPlace (s : State) (m : MachineId) (e : Int) : State :=
  tryMotion s m (speedRequest (servoSpeed s m e)) (servoSpeed s m e)

/-! ### The lock count (R113, R114) -/

/-- |e| is not more than the lock window. -/
def inLockWindow (x : MachineRec) (e : Int) : Bool := e.natAbs ≤ x.params.lockWindow

/-- A TC evaluation with error e brings a CHASING machine to LOCKED (R113). -/
def locksAt (x : MachineRec) (e : Int) : Bool :=
  x.control == .chasing && inLockWindow x e && x.params.lockCount ≤ x.inWindow + 1

/-- |e| is greater than the lock window + 2. -/
def outOfLockWindow (x : MachineRec) (e : Int) : Bool := x.params.lockWindow + 2 < e.natAbs

/-- A TC evaluation with error e brings a LOCKED machine to CHASING (R114). -/
def unlocksAt (x : MachineRec) (e : Int) : Bool :=
  x.control == .locked && outOfLockWindow x e && x.params.unlockCount ≤ x.outWindow + 1

/-- A machine becomes LOCKED (R113). -/
def becomeLocked (s : State) (m : MachineId) : State :=
  changeMachine s m (fun x => { x.countsCleared with control := .locked })

/-- A LOCKED machine becomes CHASING (R114); for a claimed machine the Run Controller is told. -/
def becomeUnlocked (s : State) (m : MachineId) : State × List RunReport :=
  (changeMachine s m (fun x => { x.countsCleared with control := .chasing }),
    if (s.machine m).claimed then [.lockLost m] else [])

/-- The lock count of a TC evaluation (R113, R114). -/
def countLock (s : State) (m : MachineId) (e : Int) : State × List RunReport :=
  match (s.machine m).control with
  | .chasing =>
    if locksAt (s.machine m) e then (becomeLocked s m, [])
    else
      (updateMachine s m (fun x => { x with inWindow := if inLockWindow x e then x.inWindow + 1 else 0 }), [])
  | .locked =>
    if unlocksAt (s.machine m) e then becomeUnlocked s m
    else
      (updateMachine s m (fun x => { x with outWindow := if outOfLockWindow x e then x.outWindow + 1 else 0 }), [])
  | .free => (s, [])
  | .locating => (s, [])
  | .parked => (s, [])

/-- A TC evaluation: the servo's request, then the lock count (R111 to R114). -/
def tcEvaluation (s : State) (m : MachineId) (position : Option Nat) : State × List RunReport :=
  match servoError s m position with
  | some e => countLock (servoPlace s m e) m e
  | none => (s, [])

/-- A CTL evaluation: the servo's request alone (R111, R112). -/
def ctlEvaluation (s : State) (m : MachineId) (position : Option Nat) : State :=
  match servoError s m position with
  | some e => servoPlace s m e
  | none => s

/-! ### The STOP input (R116, R117) -/

/-- What an asserted STOP input does to one configured machine (R116). -/
def allStopMachine (s : State) (m : MachineId) : State × List RunReport :=
  match (s.machine m).control, (s.machine m).locate with
  | .locating, some l =>
    reportLocateFailure
      (changeMachine (tryStop s m) m (fun x =>
        { x.countsCleared with leader := .noLeader, terms := none, control := .free, locate := none })) m l
      (machineLabel s m l.target) .allStop
  | _, _ =>
    (changeMachine (tryStop s m) m (fun x =>
      { x.countsCleared with leader := .noLeader, terms := none, control := .free, locate := none }), [])

/-- The Machine Controller is told that the STOP input is asserted (R116). That the machines are dealt with in the order M0
to M7, and their notices raised and their run locates reported in that order, is the model's choice: R116 names no order (log
entry 49). -/
def allStop (s : State) : State × List RunReport :=
  Unit8.all.foldl (fun acc m =>
    if (acc.1.machine m).configured then
      ((allStopMachine acc.1 m).1, acc.2 ++ (allStopMachine acc.1 m).2)
    else acc) (s, [])

/-! ### Changes of link state (R94, R117) -/

/-- The record's part of a change of link state: OFFLINE or LOCAL takes a LOCATING or PARKED machine to FREE (R94). -/
def MachineRec.afterLink (x : MachineRec) (link : LinkState) : MachineRec :=
  match link, x.control with
  | .offline, .locating => { x with control := .free, locate := none }
  | .offline, .parked => { x with control := .free, locate := none }
  | .localMode, .locating => { x with control := .free, locate := none }
  | .localMode, .parked => { x with control := .free, locate := none }
  | .offline, .free => x
  | .offline, .chasing => x
  | .offline, .locked => x
  | .localMode, .free => x
  | .localMode, .chasing => x
  | .localMode, .locked => x
  | .absent, _ => x
  | .online, _ => x

/-- The reason with which a locate ends when the link state changes. -/
def linkReason : LinkState → Option LocateReason
  | .offline => some .offline
  | .localMode => some .localMode
  | .absent => none
  | .online => none

/-- A machine whose link state becomes ONLINE while the STOP input is asserted has STOP placed at once (R117). -/
def stopIfAsserted (s : State) (m : MachineId) (link : LinkState) : State :=
  if link = .online ∧ s.stopAsserted then tryStop s m else s

/-- The port's link state becomes `link` and is reported (R94): the record follows, MACHINE_STATE is raised, a locate that
it ends is reported, and for a claimed machine the change is reported to the Run Controller. -/
def changeLink (s : State) (m : MachineId) (link : LinkState) : State × List RunReport :=
  let t := s.setPort m { s.port m with link := link }
  let t := t.setMachine m ((s.machine m).afterLink link)
  let t := raiseMachineState t m
  let (t, ended) :=
    match (s.machine m).control, (s.machine m).locate, linkReason link with
    | .locating, some l, some reason => reportLocateFailure t m l (machineLabel s m l.target) reason
    | _, _, _ => (t, [])
  (stopIfAsserted t m link, ended ++ (if (s.machine m).claimed then [.linkChanged m link] else []))

/-! ### Configuration (R90, R95, R96) -/

/-- The default parameters under a standard (R95). -/
def defaultParams (std : Standard) : MachineParams :=
  { mode := std.defaultMode, gain := 16, lockWindow := 1, lockCount := 8, unlockCount := 4, shuttleLimit := 8192,
    lag := 0, editDelay := 4, faultLimit := 2, ctlEnable := true }

/-- The record of an unconfigured machine (R93, R96). -/
def unconfiguredRec (std : Standard) : MachineRec :=
  { configured := false, params := defaultParams std, transport := none, parkedFlag := false, control := .free,
    locate := none, claimed := false, leader := .noLeader, terms := none, position := none, quality := .stale,
    tcUpdated := false, stale := 0, inWindow := 0, outWindow := 0, markIn := none, markOut := none, lastSpeed := none }

/-- The record of a machine newly configured with parameters (R96). -/
def configuredRec (params : MachineParams) : MachineRec :=
  { unconfiguredRec .s525 with configured := true, params := params }

/-- A port newly configured: ONLINE, everything else cleared (R90). -/
def Port.configured (p : Port) : Port :=
  { p.anchorCleared with link := .online, errors := 0, queue := [], exchange := none }

/-- A port whose machine is unconfigured: ABSENT, its exchange cancelled and its queue discarded (R90). -/
def Port.unconfigured (p : Port) : Port := { p with link := .absent, queue := [], exchange := none }

/-- A console locate in progress ends with LOCATE_FAILED, reason CONFIGURATION, its target a label of the old domain; the
notice comes after the MACHINE_STATE that `s` has already raised (R96, R104). -/
def configurationEndsLocate (before s : State) (m : MachineId) : State :=
  match (before.machine m).control, (before.machine m).locate with
  | .locating, some l => (reportLocateFailure s m l (machineLabel before m l.target) .configuration).1
  | _, _ => s

/-- The record in a label mode. -/
def MachineRec.withMode (x : MachineRec) (mode : LabelMode) : MachineRec := { x with params := { x.params with mode := mode } }

/-- The record's domain after a change of label mode (R96): no P, quality STALE, marks cleared. -/
def MachineRec.inMode (x : MachineRec) (mode : LabelMode) : MachineRec :=
  { x.withMode mode with
    position := none, quality := .stale, tcUpdated := false, markIn := none, markOut := none }

/-- The record with a locate in progress ended (R96, R104). -/
def MachineRec.locateEnded (x : MachineRec) : MachineRec :=
  { x with locate := none, control := if x.control = .locating then .free else x.control }

/-- The first part of a change of a machine's label mode (R90, R96): the anchor and CTL count, the position and the marks of
the old domain go. No notice is raised yet: MACHINE_STATE comes after every change of the record (R94). -/
def enterMode (s : State) (m : MachineId) (mode : LabelMode) : State :=
  (s.setPort m (s.port m).anchorCleared).setMachine m ((s.machine m).inMode mode)

/-- The second part (R96): a console locate in progress ends, and every follow of the machine is cancelled, each with its
notices; `before` is the state in the old mode, in which the locate's target is a label. That the locate's notices come before
those of the follows is the model's choice: R96 fixes no order (log entry 49). -/
def endMotionOfMode (before s : State) (m : MachineId) : State :=
  cancelFollowsOf (configurationEndsLocate before (changeMachine s m MachineRec.locateEnded) m) m

/-- A change of a machine's label mode (R90, R96): its position and marks go, follows are cancelled, a console locate ends. -/
def changeLabelMode (s : State) (m : MachineId) (mode : LabelMode) : State := endMotionOfMode s (enterMode s m mode) m

end Sys2Proof.Machine
end

