-- ==== Sys2Proof/Machine/Cues.lean ====
section
/-! DEFINITION. The Cue Unit's shared operations: loading an event's cues (R169, R170), counting and firing (R171), manual
firing (R173), discarding (R174), and the pins (R167). -/

namespace Sys2Proof.Machine

/-! ### Lines -/

/-- The level of a line's pin: high when its output state and polarity say so (R167). -/
def CueLine.pinHigh (l : CueLine) : Bool :=
  match l.polarity with
  | .activeHigh => l.active
  | .activeLow => !l.active

/-- The line without compares (R174). -/
def CueLine.discarded (l : CueLine) : CueLine := { l with armed := none, buffered := none, pendingList := [] }

/-- The line INACTIVE with its counter at 0. -/
def CueLine.quiet (l : CueLine) : CueLine := { l with active := false, counter := 0 }

/-- A pulse of a width begun, or an ACTIVE line retriggered (R171, R173). -/
def CueLine.pulse (l : CueLine) (width : Nat) : CueLine := { l with active := true, counter := width }

/-- Step 1 of R171: an ACTIVE line's counter is lowered, and the line is INACTIVE when it reaches 0. -/
def CueLine.count (l : CueLine) : CueLine :=
  if l.active then
    if l.counter - 1 = 0 then l.quiet else { l with counter := l.counter - 1 }
  else l

/-- The armed compare fires: the line becomes ACTIVE with its width, and the next compares move up (R171 step 2). -/
def CueLine.fireArmed (l : CueLine) (c : Compare) : CueLine :=
  { l.pulse c.width with armed := l.buffered, buffered := l.pendingList.head?, pendingList := l.pendingList.tail }

/-- A compare is reached at a timeline position (R171). -/
def reached (day position : Nat) (c : Compare) : Bool := 0 ≤ foldDiff day position c.position

/-- Step 2 of R171, at most n compares: the armed compare fires while it is reached. -/
def CueLine.fireReached (day position : Nat) : Nat → CueLine → CueLine
  | 0, l => l
  | n + 1, l =>
    match l.armed with
    | some c => if reached day position c then fireReached day position n (l.fireArmed c) else l
    | none => l

/-- The number of compares a line holds. -/
def CueLine.compares (l : CueLine) : Nat :=
  (if l.armed.isSome then 1 else 0) + (if l.buffered.isSome then 1 else 0) + l.pendingList.length

/-- Steps 1 and 2 of R171 on one line; without a position only step 1 is made. -/
def CueLine.field (day : Nat) (position : Option Nat) (l : CueLine) : CueLine :=
  match position with
  | some t => CueLine.fireReached day t l.count.compares l.count
  | none => l.count

/-- The line's armed compare is reached at the position (R171). -/
def CueLine.fires (day : Nat) (position : Option Nat) (l : CueLine) : Bool :=
  match position, l.armed with
  | some t, some c => reached day t c
  | some _, none => false
  | none, _ => false

/-- An ACTIVE line's counter reaches 0 at this field start (R171 step 1). -/
def CueLine.ends (l : CueLine) : Bool := l.active && l.counter - 1 == 0

/-! ### Loading (R169, R170) -/

/-- The cue window: from T0 to the field before the postroll end, clamping a raw firing position (R169 step 4). -/
def clampToWindow (day t0 postrollEnd raw : Nat) : Nat :=
  let last := wrap day ((postrollEnd : Int) - 1)
  if foldDiff day raw t0 < 0 then t0 else if 0 < foldDiff day raw last then last else raw

/-- The firing position of a cue entry (R169 steps 2 to 4). -/
def firingPosition (day : Nat) (r : Record) (times : RunTimes) (c : CueEntry) : Nat :=
  clampToWindow day times.t0 times.postrollEnd
    (wrap day (((match c.anchor with | .recordIn => r.recordIn | .recordOut => r.recordOut day) : Int) + c.offset))

/-- A compare put at its place by the fields from T0; one with the same firing position keeps its stored order (R170). -/
def insertCompare (day t0 : Nat) (c : Compare) : List Compare → List Compare
  | [] => [c]
  | x :: xs =>
    if foldDiff day c.position t0 ≤ foldDiff day x.position t0 then c :: x :: xs else x :: insertCompare day t0 c xs

/-- Compares sorted by the fields from T0, stably (R170). -/
def sortCompares (day t0 : Nat) : List Compare → List Compare
  | [] => []
  | c :: cs => insertCompare day t0 c (sortCompares day t0 cs)

/-- The entries of a line that a run of a mode keeps (R169 step 1). -/
def keptEntries (mode : RunMode) (line : CueLineId) (cues : List CueEntry) : List CueEntry :=
  cues.filter (fun c => c.line == line && !(mode == .preview && c.recordOnly))

/-- A line loaded with its sorted compares; its output state and counter stay (R170). -/
def CueLine.loaded (l : CueLine) (cs : List Compare) : CueLine :=
  { l with armed := cs.head?, buffered := cs.tail.head?, pendingList := cs.tail.tail }

/-- One line loaded with an event's cues. -/
def loadLineCues (day : Nat) (mode : RunMode) (r : Record) (times : RunTimes) (lines : Bank CueLine) (g : CueLineId) :
    Bank CueLine :=
  lines.set g ((lines.get g).loaded
    (sortCompares day times.t0
      ((keptEntries mode g r.cues).map (fun c => ⟨firingPosition day r times c, c.width⟩))))

/-- An event's cues are loaded (R169, R170). -/
def loadCues (s : State) (mode : RunMode) (e : Event) (times : RunTimes) : State :=
  s.updateCues (fun u =>
    { u with
      lines := Unit8.all.foldl (loadLineCues (dayRec s) mode e.record times) u.lines
      cueSet := some ⟨e.handle, mode⟩ })

/-! ### Discarding -/

/-- Every compare and the cue set discarded, nothing else changed (R174). -/
def discardCues (s : State) : State :=
  s.updateCues (fun u => { u with lines := u.lines.map CueLine.discarded, cueSet := none })

/-- Every line INACTIVE with its counter at 0 (R174, R175). -/
def quietLines (s : State) : State := s.updateCues (fun u => { u with lines := u.lines.map CueLine.quiet })

/-! ### The field start (R171) -/

/-- R171 on every line, while the recognised STOP state is RELEASED. -/
def cueLinesField (s : State) : State :=
  if s.stopAsserted then s
  else s.updateCues (fun u => { u with lines := u.lines.map (CueLine.field (dayRec s) (currentPosition s)) })

/-- A line of the Cue Unit. -/
def State.cueLine (s : State) (g : CueLineId) : CueLine := s.cues.lines.get g

/-- A line replaced. -/
def setCueLine (s : State) (g : CueLineId) (l : CueLine) : State :=
  s.updateCues (fun u => { u with lines := u.lines.set g l })

end Sys2Proof.Machine
end

