-- ==== Sys2Proof/Machine/Effects.lean ====
section
/-! DEFINITION. The Effects Generator: frame forms (R148, R149), the stepper (R152, R153), the mix ramp (R154), the wipe
edge (R155 to R157), the key box and the spans (R158 to R160), the frame of a field start (R147) and its bytes (R200). -/

namespace Sys2Proof.Machine

/-! ### The stepper (R152) -/

/-- A stepper loaded with a start value, an advance, a step count and a bias. -/
def loadStepper (start advance : Int) (count : Nat) (bias : Int) : Stepper :=
  { quotient := advance / (count : Int), remainder := advance - advance / (count : Int) * (count : Int), count := count,
    step := 0, output := start, working := bias }

/-- One step. -/
def Stepper.advance (t : Stepper) : Stepper :=
  if t.working - t.remainder < 0 then
    { t with step := t.step + 1, output := t.output + t.quotient + 1, working := t.working - t.remainder + (t.count : Int) }
  else { t with step := t.step + 1, output := t.output + t.quotient, working := t.working - t.remainder }

/-- A number of steps. -/
def Stepper.advanceBy (t : Stepper) : Nat → Stepper
  | 0 => t
  | n + 1 => (t.advanceBy n).advance

/-! ### The field stepper (R153 to R155) -/

/-- The horizontal run Δ of the edge over the active lines (R155). -/
def edgeRun (lines : Nat) (w : Wipe) : Int := ((lines : Int) - 1) * w.sx / (w.sy : Int)

/-- The edge's start position c_start (R155). -/
def edgeStart (lines : Nat) (w : Wipe) : Int := -(max 0 (edgeRun lines w))

/-- The field stepper as loaded at step 0 of a programme: the mix ramp without a wipe (R154), the edge sweep with one
(R155). -/
def loadField (lines : Nat) (r : Record) : Stepper :=
  match r.wipe with
  | none => loadStepper 0 256 (r.transition.getD 0) ((r.transition.getD 0 / 2 : Nat) : Int)
  | some w =>
    loadStepper (edgeStart lines w) (720 + ((edgeRun lines w).natAbs : Int)) (r.transition.getD 0)
      ((r.transition.getD 0 / 2 : Nat) : Int)

/-- The field stepper brought to step j (R153). -/
def stepperAt (lines : Nat) (r : Record) (held : Option Stepper) (j : Nat) : Stepper :=
  match j, held with
  | 0, _ => loadField lines r
  | k + 1, some t => if t.step = k then t.advance else (loadField lines r).advanceBy (k + 1)
  | k + 1, none => (loadField lines r).advanceBy (k + 1)

/-! ### The wipe edge (R156, R157) -/

/-- A column clamped to 0 to 720. -/
def clampColumn (x : Int) : Nat := (max 0 (min 720 x)).toNat

/-- The line stepper as loaded for each frame (R156). -/
def loadLine (w : Wipe) : Stepper := loadStepper 0 w.sx w.sy ((w.sy : Int) - 1)

/-- The edge x(l) of each of n lines, from the line at which a line stepper stands on (R156). -/
def edgesFrom (c : Int) : Nat → Stepper → List Nat
  | 0, _ => []
  | n + 1, t => clampColumn (c + t.output) :: edgesFrom c n t.advance

/-- The wiped side's boundary as a column: x(l), or 720 − x(l) with the reverse flag (R157, R160). -/
def wipeColumn (reverse : Bool) (x : Nat) : Nat := if reverse then 720 - x else x

/-- A column lies on the wiped side (R157). -/
def inWiped (reverse : Bool) (x column : Nat) : Bool := if reverse then 720 - x ≤ column else column < x

/-! ### The key box and the spans (R158 to R160) -/

/-- A column of a line lies in the key region (R158). -/
def inKey (box : Option KeyBox) (line column : Nat) : Bool :=
  match box with
  | none => false
  | some b => b.ky0 ≤ line && line < b.ky1 && b.kx0 ≤ column && column < b.kx1

/-- B is shown in a column: by the mask of a BOX, or on the wiped side of a WIPE (R159). -/
def showsB (box : Option KeyBox) (wiped key : Bool) : Bool :=
  match box with
  | none => wiped
  | some b => b.mask.testBit ((if wiped then 2 else 0) + (if key then 1 else 0))

/-- A boundary put at its place in an ascending list; equal boundaries are kept as one (R160 step 1). -/
def insertBoundary (b : Nat) : List Nat → List Nat
  | [] => [b]
  | x :: xs => if b < x then b :: x :: xs else if b = x then x :: xs else x :: insertBoundary b xs

/-- The boundaries of a line (R160 step 1). -/
def boundaries (box : Option KeyBox) (edge : Nat) : List Nat :=
  insertBoundary edge
    (match box with
     | none => [0, 720]
     | some b => insertBoundary b.kx0 (insertBoundary b.kx1 [0, 720]))

/-- The intervals between consecutive boundaries that show B (R160 step 2). -/
def intervalsOfB (shows : Nat → Bool) : List Nat → List Span
  | [] => []
  | [_] => []
  | a :: b :: rest => if shows a then ⟨a, b⟩ :: intervalsOfB shows (b :: rest) else intervalsOfB shows (b :: rest)

/-- Spans that meet end to start merged into one (R160 step 3). -/
def mergeSpans : List Span → List Span
  | [] => []
  | x :: xs =>
    match mergeSpans xs with
    | [] => [x]
    | y :: ys => if x.stop = y.start then ⟨x.start, y.stop⟩ :: ys else x :: y :: ys

/-- The span list of a line of a WIPE or BOX whose edge is x (R160). -/
def lineSpans (w : Wipe) (box : Option KeyBox) (line x : Nat) : List Span :=
  mergeSpans
    (intervalsOfB (fun a => showsB box (inWiped w.reverse x a) (inKey box line a)) (boundaries box (wipeColumn w.reverse x)))

/-- The span lists of the lines from `line` on, one for each edge. -/
def spansFrom (w : Wipe) (box : Option KeyBox) : Nat → List Nat → List (List Span)
  | _, [] => []
  | line, x :: xs => lineSpans w box line x :: spansFrom w box (line + 1) xs

/-- Every line's span list at an edge position c (R156, R160). -/
def wipeLines (lines : Nat) (w : Wipe) (box : Option KeyBox) (c : Int) : List (List Span) :=
  spansFrom w box 0 (edgesFrom c lines (loadLine w))

/-! ### Frame forms (R148, R149) -/

/-- The A select of the from-source: source 2. -/
def fromSelect (r : Record) : BusSelect :=
  match r.source2 with
  | some x => .machine x.machine
  | none => .black

/-- The form of the frame of a field (R149). -/
def formOf (s : State) : FrameForm :=
  match s.effects.programme, currentPosition s with
  | some e, some t =>
    if s.run.phase.active && s.run.phase != .cueing && e.record.tracks.v then
      if foldDiff (dayRec s) t e.record.recordIn < 0 then .leadIn
      else if e.record.kind.twoSources
          && foldDiff (dayRec s) t e.record.recordIn < ((e.record.transition.getD 0 : Nat) : Int) then
        .transition (foldDiff (dayRec s) t e.record.recordIn).toNat
      else .flip
    else .manual
  | some _, none => .manual
  | none, _ => .manual

/-- No spans on any line. -/
def noSpans (lines : Nat) : List (List Span) := List.replicate lines []

/-- The frame of a form (R148); `t` is the field stepper of a TRANSITION. -/
def frameOf (lines : Nat) (manual : BusSelect) (r : Option Record) (form : FrameForm) (t : Stepper) : EffectsFrame :=
  match form, r with
  | .manual, _ => ⟨manual, .black, 0, noSpans lines⟩
  | .leadIn, some r =>
    if r.kind.twoSources then ⟨fromSelect r, .machine r.source1.machine, 0, noSpans lines⟩
    else ⟨.machine r.source1.machine, .black, 0, noSpans lines⟩
  | .flip, some r => ⟨.machine r.source1.machine, .black, 0, noSpans lines⟩
  | .transition _, some r =>
    match r.wipe with
    | none => ⟨fromSelect r, .machine r.source1.machine, t.output.toNat, List.replicate lines [⟨0, 720⟩]⟩
    | some w => ⟨fromSelect r, .machine r.source1.machine, 256, wipeLines lines w r.box t.output⟩
  | .leadIn, none => ⟨manual, .black, 0, noSpans lines⟩
  | .flip, none => ⟨manual, .black, 0, noSpans lines⟩
  | .transition _, none => ⟨manual, .black, 0, noSpans lines⟩

/-- The field stepper after a frame of a form: at its step in a TRANSITION, idle otherwise (R153). -/
def stepperFor (lines : Nat) (r : Option Record) (held : Option Stepper) (form : FrameForm) : Option Stepper :=
  match form, r with
  | .transition j, some r => some (stepperAt lines r held j)
  | .transition _, none => none
  | .manual, _ => none
  | .leadIn, _ => none
  | .flip, _ => none

/-- An idle stepper, where a frame reads none. -/
def idleStepper : Stepper := loadStepper 0 0 1 0

/-- The programme's record. -/
def programmeRecord (s : State) : Option Record := s.effects.programme.map Event.record

/-- The Effects Generator takes a field start (R147): a new frame, or the frozen frame again; either is sent. -/
def effectsField (s : State) : State :=
  if s.effects.freeze then s.updateEffects (fun g => { g with framesSent := g.framesSent + 1 })
  else
    let lines := s.timeline.standard.lines
    let form := formOf s
    let stepper := stepperFor lines (programmeRecord s) s.effects.stepper form
    s.updateEffects (fun g =>
      { g with
        frame := frameOf lines g.manual (programmeRecord s) form (stepper.getD idleStepper)
        form := form, stepper := stepper, framesSent := g.framesSent + 1 })

/-- A programme is handed over at a take (R165). -/
def loadProgramme (s : State) (e : Event) : State :=
  s.updateEffects (fun g => { g with programme := some e, stepper := none })

/-- The STOP input's reports: the freeze flag set (R161) or cleared (R162). -/
def setFreeze (s : State) (b : Bool) : State := s.updateEffects (fun g => { g with freeze := b })

/-- RESTART: no programme, the stepper idle, the freeze flag clear (R166). -/
def restartEffects (s : State) : State :=
  s.updateEffects (fun g => { g with programme := none, stepper := none, freeze := false })

/-! ### The frame on the effects port (R200) -/

/-- A line's span count and spans. -/
def lineBytes (l : List Span) : List Byte := u8 l.length ++ (l.map (fun x => u16 x.start ++ u16 x.stop)).flatten

/-- The bytes of a frame on the effects port (R200). -/
def frameBytes (f : EffectsFrame) : List Byte :=
  busByte f.aSelect ++ busByte f.bSelect ++ u16 f.level ++ u16 f.lines.length ++ (f.lines.map lineBytes).flatten

end Sys2Proof.Machine
end

