-- ==== Sys2Proof/Machine/Runs.lean ====
section
/-! DEFINITION. The Run Controller's shared operations: run times (R125), holds (R134, R142), the take (R122 to R124,
R126), what it does with reports (R126, R128, R130, R132), and its work at a field start (R126 to R133). -/

namespace Sys2Proof.Machine

/-! ### The machines of an event -/

/-- The machines of an event in the order recorder, source 1, source 2 (R108, R123). -/
def eventMachines (s : State) (r : Record) : List MachineId :=
  s.recorder.toList ++ r.source1.machine :: (r.source2.map Source.machine).toList

/-- The machines of the current event. -/
def runMachines (s : State) : List MachineId :=
  match s.run.copy with
  | some e => eventMachines s e.record
  | none => s.recorder.toList

/-- A source's target terms: the record in, its source in and its rate (R109). -/
def termsOf (r : Record) (m : MachineId) : Option TargetTerms :=
  if r.source1.machine = m then some ⟨r.recordIn, r.source1.sourceIn, r.rate.getD 256⟩
  else
    match r.source2 with
    | some x => if x.machine = m then some ⟨r.recordIn, x.sourceIn, 256⟩ else none
    | none => none

/-- The target terms of a machine of the event: none for the recorder (R109). -/
def machineTerms (s : State) (r : Record) (m : MachineId) : Option TargetTerms :=
  if s.recorder = some m then none else termsOf r m

/-- A machine's locate target, its target at T0 (R125). -/
def locateTarget (s : State) (r : Record) (m : MachineId) (t0 : Nat) : Nat :=
  match machineTerms s r m with
  | none => t0
  | some t => sourceTarget s m t t0

/-- The edit delay of the recorder. -/
def editDelay (s : State) : Nat :=
  match s.recorder with
  | some m => (s.machine m).params.editDelay
  | none => 0

/-! ### Run times (R125) -/

/-- The edit-on fields of an event, the picture's first; the same field for both is one edit-on field. -/
def editOnsOf (day ed : Nat) (r : Record) : List EditOn :=
  let picture := wrap day ((r.recordIn : Int) - (ed : Int))
  let sound := wrap day ((r.recordIn : Int) + r.splitOf - (ed : Int))
  if r.tracks.v && r.tracks.hasAudio then
    if picture = sound then [⟨picture, r.tracks⟩] else [⟨picture, .vOnly⟩, ⟨sound, r.tracks.audio⟩]
  else if r.tracks.v then [⟨picture, .vOnly⟩]
  else [⟨sound, r.tracks.audio⟩]

/-- E0, the earlier of the edit-on fields. -/
def firstEditOn (day : Nat) : List EditOn → Nat
  | [] => 0
  | [a] => a.position
  | a :: b :: _ => earlier day a.position b.position

/-- The run times of an event (R125). -/
def runTimesOf (day ed : Nat) (p : RunParams) (r : Record) : RunTimes :=
  let ons := editOnsOf day ed r
  let e0 := firstEditOn day ons
  { t0 := wrap day ((r.recordIn : Int) - (p.preroll : Int))
    editOns := ons
    e0 := e0
    syncDeadline :=
      earlier day (wrap day ((r.recordIn : Int) - (p.syncMargin : Int))) (wrap day ((e0 : Int) - 1))
    editOff := wrap day ((r.recordOut day : Int) - (ed : Int))
    postrollEnd := wrap day ((r.recordOut day : Int) + (p.postroll : Int)) }

/-- The edit timing fits: E0 is at least two fields after T0 (R123 step 5, R125). -/
def timingFits (day : Nat) (t : RunTimes) : Bool := 2 ≤ foldDiff day t.e0 t.t0

/-! ### Asking the store (R31, R142) -/

/-- An event's state changed for the run, and its EVENT_STATE notice raised. -/
def changeEventState (s : State) (handle : Nat) (f : Event → Event) : State :=
  match findEvent (updateEvent s handle f) handle with
  | some e => raiseNotice (updateEvent s handle f) (.eventState handle e.state e.flags)
  | none => s

/-- Restoration without recording: the prior state and flags (R31). -/
def Event.restored (e : Event) (prior : Option PriorState) : Event :=
  match prior with
  | some p => e.withState p.state p.flags
  | none => e

/-! ### Holds (R134) -/

/-- The edit request of a hold: EDIT OFF for the edit-on track set, for the current event. -/
def editOffRequest (s : State) : QueuedRequest := ⟨.editOff s.run.editSet, s.run.current⟩

/-- Step 1 of R134: EDIT OFF placed ahead at the recorder's port for the tracks in edit, and the set cleared. A request
that it discards is reported LOST. -/
def holdEditOff (s : State) : State :=
  if s.run.editSet.isEmpty then s
  else
    let cleared := s.updateRun (fun r => { r with editSet := TrackSet.none })
    match s.recorder with
    | none => cleared
    | some m =>
      match (s.port m).placeAhead (editOffRequest s) with
      | .error _ => cleared
      | .ok (p, lost) =>
        let t := cleared.setPort m p
        match lost with
        | some q => if q.request.isLocate then (failLocate t m .lost).1 else t
        | none => t

/-- Step 2 of R134: every claimed machine of the event released. That it is done recorder first and then source 1 and
source 2, as the claims are made, is the model's choice: R110 names no order (log entry 49). -/
def releaseAll (s : State) : State := (runMachines s).foldl releaseMachine s

/-- Step 5 of R134: the event restored. -/
def restoreEvent (s : State) : State :=
  match s.run.current with
  | some h =>
    changeEventState s h (fun e =>
      if s.run.recordingStarted then e.leftIncomplete else e.restored s.run.prior)
  | none => s

/-- The fields that a hold, a postroll end or the end of a run clears. -/
def RunRecord.eventCleared (r : RunRecord) : RunRecord :=
  { r with copy := none, prior := none, times := none, recordingStarted := false, deadlinePassed := false }

/-- The RUN_HELD notice (R142). -/
def runHeldNotice (s : State) (cause : HoldCause) (m : Option MachineId) (phase : Option Phase) : Notice :=
  .runHeld cause m s.run.current phase s.run.eventsDone

/-- The phase becomes HELD with a cause, and RUN_HELD is raised. -/
def becomeHeld (s : State) (cause : HoldCause) (m : Option MachineId) (phase : Option Phase) : State :=
  raiseNotice (s.updateRun (fun r => { r with phase := .held, holdCause := some cause })) (runHeldNotice s cause m phase)

/-- A hold taken in an active phase (R134); in IDLE or HELD it does nothing. -/
def holdRun (s : State) (cause : HoldCause) (m : Option MachineId) : State :=
  if s.run.phase.active then
    let t := restoreEvent (discardCues (stopClock (releaseAll (holdEditOff s))))
    becomeHeld (t.updateRun (fun r => { r.eventCleared with holdPending := none })) cause m (some s.run.phase)
  else s

/-- A take hold (R123). -/
def takeHold (s : State) (cause : HoldCause) (m : Option MachineId) : State :=
  becomeHeld (s.updateRun RunRecord.eventCleared) cause m none

/-! ### The take (R122 to R124) -/

/-- The first machine that is not configured and ONLINE, with its cause (R123 step 1). -/
def firstOffline (s : State) : List MachineId → Option (HoldCause × MachineId)
  | [] => none
  | m :: ms =>
    if (s.machine m).configured && s.link m == .online then firstOffline s ms
    else some (if s.link m = .localMode then .machineLocal else .machineOffline, m)

/-- Validation (R123): the cause and machine of the first test that fails. -/
def validateTake (s : State) (r : Record) (t : RunTimes) : Option (HoldCause × Option MachineId) :=
  match firstOffline s (eventMachines s r) with
  | some (c, m) => some (c, some m)
  | none =>
    match (eventMachines s r).find? (fun m => (s.machine m).following) with
    | some m => some (.machineBusy, some m)
    | none =>
      if s.stopAsserted then some (.allStop, none)
      else if (validity s r).isSome then some (.eventInvalid, none)
      else if !timingFits (dayRec s) t then some (.eventInvalid, none)
      else none

/-- The hold cause of a refused run locate (R126). -/
def locateRefusalCause : Result → HoldCause
  | .localMode => .machineLocal
  | .stopped => .allStop
  | .queueFull => .cueFail
  | _ => .machineOffline

/-- The run locates of R126, recorder first; a refusal holds the run at once. -/
def beginLocates (s : State) (r : Record) (t0 : Nat) : List MachineId → State
  | [] => s
  | m :: ms =>
    match startRunLocate s m (locateTarget s r m t0) with
    | .ok t => beginLocates t r t0 ms
    | .error e => holdRun s (locateRefusalCause e) (some m)

/-- A phase change with its RUN_PHASE notice (R142). -/
def enterPhase (s : State) (p : Phase) : State :=
  raiseNotice (s.updateRun (fun r => { r with phase := p })) (.runPhase p s.run.mode s.run.current)

/-- The take of a validated event (R124). -/
def makeTake (s : State) (e : Event) (times : RunTimes) : State :=
  let s1 := s.updateRun (fun r => { r with inForce := some s.runParams, times := some times })
  let s2 := changeEventState s1 e.handle (fun x => x.withState .running x.flags)
  let s3 := s2.updateRun (fun r =>
    { r with copy := findEvent s2 e.handle, prior := some ⟨e.state, e.flags⟩ })
  let s4 := (eventMachines s3 e.record).foldl claimMachine s3
  let s5 := loadCues (loadProgramme s4 (e.withState .running e.flags)) (s.run.mode.getD .preview) e times
  let s6 := s5.updateRun (fun r =>
    { r with editSet := TrackSet.none, recordingStarted := false, cueingCount := 0, deadlinePassed := false })
  beginLocates (enterPhase s6 .cueing) e.record times.t0 (eventMachines s6 e.record)

/-- The end of a run: a take that found no event (R122). -/
def endRun (s : State) : State :=
  raiseNotice
    (s.updateRun (fun r => { r.eventCleared with phase := .idle, current := none, holdCause := none }))
    (.runEnd s.run.mode s.run.eventsDone)

/-- A take of the event found, or the end of the run (R122 to R124). -/
def takeEvent (s : State) (found : Option Event) : State :=
  match found with
  | none => endRun s
  | some e =>
    let t := s.updateRun (fun r => { r with current := some e.handle, holdCause := none })
    let times := runTimesOf (dayRec s) (editDelay s) s.runParams e.record
    match validateTake t e.record times with
    | some (c, m) => takeHold t c m
    | none => makeTake t e times

/-- The event of a take by the search, at a postroll end or at RESUME SKIP: none in SINGLE scope (R122). -/
def searchScope (s : State) : Option Event :=
  match s.run.scope with
  | some (.range first last) => takeSearch s (s.run.mode.getD .preview) first last s.run.cursor
  | some (.single _) => none
  | none => none

/-! ### Reports (R126, R128, R130, R132) -/

/-- A deferred fault in POSTROLL: the first fault is kept, and it replaces a pending HOLD_REQUEST (R132). -/
def deferFault (s : State) (cause : HoldCause) (m : MachineId) : State :=
  s.updateRun (fun r =>
    { r with holdPending :=
        match r.holdPending with
        | some p => if p.cause = .holdRequest then some ⟨cause, some m⟩ else some p
        | none => some ⟨cause, some m⟩ })

/-- The hold cause of a link state. -/
def linkCause : LinkState → Option HoldCause
  | .offline => some .machineOffline
  | .localMode => some .machineLocal
  | .absent => none
  | .online => none

/-- The hold cause of a failed run locate; LOST is not acted on (R126). -/
def locateCause : LocateReason → Option HoldCause
  | .mismatch => some .cueFail
  | .refused => some .cueFail
  | .tapeOut => some .cueFail
  | .offline => some .machineOffline
  | .localMode => some .machineLocal
  | .allStop => some .allStop
  | .lost => none
  | .claimed => none
  | .configuration => none

/-- What a report calls for in a phase: nothing, a hold, or a deferred fault. -/
inductive ReportEffect where
  | nothing
  | hold (cause : HoldCause) (m : Option MachineId)
  | defer (cause : HoldCause) (m : MachineId)
deriving DecidableEq, Repr

/-- A hold with a cause that may be absent. -/
def holdIf (c : Option HoldCause) (m : MachineId) : ReportEffect :=
  match c with
  | some c => .hold c (some m)
  | none => .nothing

/-- A deferred fault with a cause that may be absent. -/
def deferIf (c : Option HoldCause) (m : MachineId) : ReportEffect :=
  match c with
  | some c => .defer c m
  | none => .nothing

/-- What a failed run locate calls for: ALL_STOP is no machine's cause and names none (R126, R142). -/
def locateEffect (reason : LocateReason) (m : MachineId) : ReportEffect :=
  match reason with
  | .allStop => .hold .allStop none
  | .mismatch => holdIf (locateCause .mismatch) m
  | .refused => holdIf (locateCause .refused) m
  | .tapeOut => holdIf (locateCause .tapeOut) m
  | .offline => holdIf (locateCause .offline) m
  | .localMode => holdIf (locateCause .localMode) m
  | .lost => holdIf (locateCause .lost) m
  | .claimed => holdIf (locateCause .claimed) m
  | .configuration => holdIf (locateCause .configuration) m

/-- What the Run Controller does with a report (R126, R128, R130, R132, R134). -/
def reportEffect (s : State) (r : RunReport) : ReportEffect :=
  match s.run.phase, r with
  | .cueing, .locateFailed m reason => locateEffect reason m
  | .cueing, .linkChanged m l => holdIf (linkCause l) m
  | .cueing, .lockLost _ => .nothing
  | .cueing, .editOnFailed _ => .nothing
  | .rolling, .locateFailed _ _ => .nothing
  | .rolling, .linkChanged m l => holdIf (linkCause l) m
  | .rolling, .lockLost m => if s.run.deadlinePassed then .hold .lockLost (some m) else .nothing
  | .rolling, .editOnFailed _ => .nothing
  | .editing, .locateFailed _ _ => .nothing
  | .editing, .linkChanged m l => holdIf (linkCause l) m
  | .editing, .lockLost m => .hold .lockLost (some m)
  | .editing, .editOnFailed h => if h = s.run.current then .hold .editCommandFailed s.recorder else .nothing
  | .postroll, .locateFailed _ _ => .nothing
  | .postroll, .linkChanged m l => deferIf (linkCause l) m
  | .postroll, .lockLost m => .defer .lockLost m
  | .postroll, .editOnFailed h => if h = s.run.current then .hold .editCommandFailed s.recorder else .nothing
  | .idle, _ => .nothing
  | .held, _ => .nothing

/-- The Run Controller takes a report. -/
def takeReport (s : State) (r : RunReport) : State :=
  match reportEffect s r with
  | .nothing => s
  | .hold c m => holdRun s c m
  | .defer c m => deferFault s c m

/-- The Run Controller takes reports in the order in which they reach it. -/
def deliver (x : State × List RunReport) : State := x.2.foldl takeReport x.1

/-! ### The field start (R126 to R133) -/

/-- Every claimed machine is PARKED (R127). -/
def allParked (s : State) : Bool := (runMachines s).all (fun m => (s.machine m).control == .parked)

/-- The parity of the last field start matches that of T0 (R127). -/
def parityMatches (s : State) : Bool :=
  match s.timeline.field, s.run.times with
  | some f, some t => f.parity == parityOf t.t0
  | some _, none => false
  | none, _ => false

/-- The roll is due at this field start (R127). -/
def rollDue (s : State) : Bool := s.run.phase == .cueing && allParked s && parityMatches s

/-- The roll (R127). That the machines take the leader TIMELINE and raise their notices recorder first and then source 1 and
source 2, as the claims are made, is the model's choice: R109 and R127 name no order (log entry 49). -/
def makeRoll (s : State) : State :=
  match s.run.times, s.run.copy with
  | some t, some e =>
    enterPhase
      ((runMachines s).foldl (fun x m => chaseTimeline x m (machineTerms s e.record m)) (startClock s t.t0)) .rolling
  | _, _ => s

/-- The cueing count raised by one (R126), never above 7,200 (R119). -/
def raiseCueing (s : State) : State := s.updateRun (fun r => { r with cueingCount := min 7200 (r.cueingCount + 1) })

/-- The cue timeout in force. -/
def cueTimeoutInForce (s : State) : Nat :=
  match s.run.inForce with
  | some p => p.cueTimeout
  | none => s.runParams.cueTimeout

/-- The hold CUE_TIMEOUT is due once the cueing count has been raised and no roll was made (R126). -/
def cueTimeoutDue (s : State) : Bool :=
  s.run.phase == .cueing && cueTimeoutInForce s ≤ s.run.cueingCount && !allParked s

/-- The first machine of the event that fails a test on its control state. -/
def firstNot (s : State) (c : ControlState) : Option MachineId :=
  (runMachines s).find? (fun m => (s.machine m).control != c)

/-- CUEING at a field start: the count, the roll, the timeout (R126, R127). -/
def cueingField (s : State) : State :=
  if rollDue (raiseCueing s) then makeRoll (raiseCueing s)
  else if cueTimeoutDue (raiseCueing s) then
    holdRun (raiseCueing s) .cueTimeout (firstNot (raiseCueing s) .parked)
  else raiseCueing s

/-- This field start's timeline position is a run time's. -/
def atTime (s : State) (f : RunTimes → Nat) : Bool :=
  match s.run.times, currentPosition s with
  | some t, some p => f t == p
  | some _, none => false
  | none, _ => false

/-- The sync deadline's field start is at hand (R128). -/
def deadlineDue (s : State) : Bool := s.run.phase == .rolling && atTime s RunTimes.syncDeadline

/-- The sync deadline: every claimed machine is LOCKED, or the run holds with SYNC_FAIL (R128). -/
def syncField (s : State) : State :=
  if deadlineDue s then
    match firstNot s .locked with
    | some m => holdRun s .syncFail (some m)
    | none => s.updateRun (fun r => { r with deadlinePassed := true })
  else s

/-- The edit-on field at this field start, if any (R129). -/
def editOnAt (s : State) : Option EditOn :=
  match s.run.times, currentPosition s with
  | some t, some p =>
    if s.run.phase == .rolling || s.run.phase == .editing then t.editOns.find? (fun x => x.position == p) else none
  | some _, none => none
  | none, _ => none

/-- The hold cause of a refused edit request (R129, R131). -/
def editRefusalCause : Result → HoldCause
  | .localMode => .machineLocal
  | .queueFull => .editCommandFailed
  | _ => .machineOffline

/-- An edit request placed at the recorder's port in the ordinary way; a recorder that is not designated has no port. -/
def placeEditRequest (s : State) (r : DeckRequest) : Except Result State :=
  match s.recorder with
  | none => .error .notConfigured
  | some m =>
    match (s.port m).placeEdit ⟨r, s.run.current⟩ with
    | .ok p => .ok (s.setPort m p)
    | .error e => .error e

/-- EDIT ON placed for a track set (R129, RECORD mode). -/
def placeEditOn (s : State) (tracks : TrackSet) : State :=
  match placeEditRequest s (.editOn tracks) with
  | .ok t => t.updateRun (fun r => { r with editSet := r.editSet.union tracks, recordingStarted := true })
  | .error e => holdRun s (editRefusalCause e) s.recorder

/-- At E0 the phase becomes EDITING (R129). -/
def enterEditing (s : State) : State := if atTime s RunTimes.e0 then enterPhase s .editing else s

/-- The Run Controller at an edit-on field (R129). -/
def editOnField (s : State) : State :=
  match editOnAt s with
  | some x =>
    match s.run.mode with
    | some .record => placeEditOn (enterEditing s) x.tracks
    | some .preview => enterEditing s
    | none => enterEditing s
  | none => s

/-- The edit-off field is at hand (R131). -/
def editOffDue (s : State) : Bool := s.run.phase == .editing && atTime s RunTimes.editOff

/-- The event's whole track set. -/
def currentTracks (s : State) : TrackSet :=
  match s.run.copy with
  | some e => e.record.tracks
  | none => TrackSet.none

/-- The Run Controller at the edit-off field (R131). -/
def editOffField (s : State) : State :=
  if editOffDue s then
    match s.run.mode with
    | some .record =>
      match placeEditRequest s (.editOff (currentTracks s)) with
      | .ok t => enterPhase (t.updateRun (fun r => { r with editSet := TrackSet.none })) .postroll
      | .error e => holdRun s (editRefusalCause e) s.recorder
    | some .preview => enterPhase s .postroll
    | none => enterPhase s .postroll
  else s

/-- The postroll end is at hand (R133). -/
def postrollDue (s : State) : Bool := s.run.phase == .postroll && atTime s RunTimes.postrollEnd

/-- Step 3 of R133: completion in RECORD mode, restoration without recording in PREVIEW mode. -/
def finishEvent (s : State) (h : Nat) : State :=
  match s.run.mode with
  | some .record => changeEventState s h Event.completed
  | some .preview => changeEventState s h (fun e => e.restored s.run.prior)
  | none => changeEventState s h (fun e => e.restored s.run.prior)

/-- The cursor moved to an event's key when that key is after it (R133 step 4, R139). -/
def advanceCursor (s : State) (handle : Nat) : State :=
  match findEvent s handle with
  | some e =>
    if eventAfter s s.run.cursor e then
      s.updateRun (fun r => { r with cursor := ⟨startOffset s e.record, some e.insertion⟩ })
    else s
  | none => s

/-- The cursor advanced in RANGE scope alone. -/
def advanceInRange (s : State) (handle : Nat) : State :=
  match s.run.scope with
  | some (.range _ _) => advanceCursor s handle
  | some (.single _) => s
  | none => s

/-- Steps 1 to 5 of R133. -/
def completeEvent (s : State) (h : Nat) : State :=
  let t := finishEvent (stopClock (releaseAll s)) h
  let t := t.updateRun (fun r => { r with eventsDone := min 65535 (r.eventsDone + 1) })
  (advanceInRange t h).updateRun (fun r => { r.eventCleared with editSet := TrackSet.none })

/-- Step 6 of R133: the pending hold, or the next take. -/
def afterPostroll (s : State) : State :=
  match s.run.holdPending with
  | some p => becomeHeld (s.updateRun (fun r => { r with holdPending := none })) p.cause p.machine (some .postroll)
  | none => takeEvent s (searchScope s)

/-- The Run Controller at the postroll end (R133). -/
def postrollField (s : State) : State :=
  if postrollDue s then
    match s.run.current with
    | some h => afterPostroll (completeEvent s h)
    | none => s
  else s

/-- The Run Controller takes a field start: cueing in CUEING; otherwise the sync deadline, an edit-on field, the edit-off
field and the postroll end, each when it is at hand (R126 to R133). -/
def runField (s : State) : State :=
  if s.run.phase = .cueing then cueingField s else postrollField (editOffField (editOnField (syncField s)))

/-! ### RESTART (R143) -/

/-- The Run Controller's steps 1 to 3 at RESTART; the store's step 4 follows. -/
def restartRunStart (s : State) : State := quietLines (discardCues (stopClock (releaseAll (holdEditOff s))))

/-- Step 5 of R143. -/
def restartRunEnd (s : State) : State :=
  s.updateRun (fun r =>
    { r.eventCleared with
      phase := .idle, current := none, inForce := none, cueingCount := 0, holdCause := none, holdPending := none })

end Sys2Proof.Machine
end

