-- ==== Sys2Proof/Machine/PortEvents.lean ====
section
/-! DEFINITION. What the part does with a deck's reply and with a fault of the deck link: a STATUS (R77, R88, R94), a NAK
(R78, R79, R82), an exchange that fails and an unsolicited character (R80), and going OFFLINE (R81). -/

namespace Sys2Proof.Machine

/-- The class of the reply once the given characters have come; none when the port does not listen (R76). -/
def replyClass (s : State) (m : MachineId) (chars : List Byte) : Option ReplyClass :=
  (s.port m).received.map (fun rx => classify (rx ++ chars))

/-- The payload of the STATUS that the given characters complete, if they complete one. -/
def statusOf (s : State) (m : MachineId) (chars : List Byte) : Option StatusPayload :=
  match replyClass s m chars with
  | some (.status p) => some p
  | some .incomplete => none
  | some .nakRefused => none
  | some .nakLocal => none
  | some .faulty => none
  | none => none

/-- The last of the given characters makes the reply fail with CHECK, and none before it did (R76). -/
def checkFails (s : State) (m : MachineId) (chars : List Byte) (faulty : Bool) : Bool :=
  !chars.isEmpty && replyClass s m chars.dropLast == some .incomplete
    && (faulty || replyClass s m chars == some .faulty)

/-! ### A STATUS (R77, R88, R94) -/

/-- The record's and the port's part of a STATUS (R77 step 2, R88): the transport mode and parked flag, and the TC update. -/
def applyStatus (s : State) (m : MachineId) (p : StatusPayload) (update : Option Nat) : State :=
  match update with
  | some n =>
    (s.setPort m ((s.port m).anchored n)).setMachine m
      { s.machine m with
        transport := some p.transport, parkedFlag := p.parked, position := some n, quality := .tc, tcUpdated := true }
  | none => s.setMachine m { s.machine m with transport := some p.transport, parkedFlag := p.parked }

/-- The request on the line is removed and reported ANSWERED (R77 step 3); a LOCATE's outcome goes to its locate (R103). -/
def answerOnLine (s : State) (m : MachineId) : State :=
  match (s.port m).onLineRequest with
  | some q =>
    if q.request.isLocate then acknowledgeLocate (s.setPort m (s.port m).removeOnLine) m
    else s.setPort m (s.port m).removeOnLine
  | none => s

/-- The position a STATUS gives the machine, if it gives a TC update (R88). -/
def tcUpdateOf (s : State) (m : MachineId) (p : StatusPayload) : Option Nat := statusPosition (modeOf s m) p

/-- A STATUS up to the report ANSWERED: the error count, the record, the parking test and the request on the line. -/
def statusApplied (s : State) (m : MachineId) (p : StatusPayload) : State × List RunReport :=
  let t := parkingTest (applyStatus (s.setPort m (s.port m).completed) m p (tcUpdateOf s m p)) m p.transport p.parked
    (tcUpdateOf s m p)
  (answerOnLine t.1 m, t.2)

/-- The timeline position of the field start that opened the port's exchange (R111). -/
def exchangePosition (s : State) (m : MachineId) : Option Nat :=
  match (s.port m).exchange with
  | some x => positionAt s x.field
  | none => none

/-- The servo and the lock count on a STATUS that gave a TC update (R111 to R114). They come after the answered request has
left the queue, as the NOTE of R84 and the sequence of section 4.5 have it. -/
def statusServo (s : State) (m : MachineId) (update : Option Nat) : State × List RunReport :=
  match update with
  | some _ => tcEvaluation s m (exchangePosition s m)
  | none => (s, [])

/-- A STATUS returns a LOCAL or OFFLINE port to ONLINE (R79, R82). -/
def statusLink (s : State) (m : MachineId) : State × List RunReport :=
  match s.link m with
  | .localMode => changeLink s m .online
  | .offline => changeLink s m .online
  | .online => (s, [])
  | .absent => (s, [])

/-- A well-formed STATUS has completed the exchange (R77). -/
def takeStatus (s : State) (m : MachineId) (p : StatusPayload) : State :=
  let applied := statusApplied s m p
  let servo := statusServo applied.1 m (tcUpdateOf s m p)
  let linked := statusLink servo.1 m
  deliver (linked.1, applied.2 ++ servo.2 ++ linked.2)

/-- The error of the TC evaluation that the STATUS brings about, if it brings one about. -/
def statusError (s : State) (m : MachineId) (p : StatusPayload) : Option Int :=
  match tcUpdateOf s m p with
  | some _ => servoError (statusApplied s m p).1 m (exchangePosition (statusApplied s m p).1 m)
  | none => none

/-! ### A NAK (R78, R79, R82) -/

/-- The request on the line is refused by the deck (R78): an EDIT OFF stays, any other is removed and reported REFUSED. -/
def refuseOnLine (s : State) (m : MachineId) : State × List RunReport :=
  match (s.port m).onLineRequest with
  | some q =>
    match q.request with
    | .editOff _ => (s.setPort m (s.port m).offLine, [])
    | .editOn _ => (s.setPort m (s.port m).removeOnLine, [.editOnFailed q.event])
    | .locate _ => failLocate (s.setPort m (s.port m).removeOnLine) m .refused
    | .stop => (s.setPort m (s.port m).removeOnLine, [])
    | .play => (s.setPort m (s.port m).removeOnLine, [])
    | .shuttle _ => (s.setPort m (s.port m).removeOnLine, [])
  | none => (s, [])

/-- A NAK REFUSED has completed the exchange (R78, R79, R82). -/
def takeNakRefused (s : State) (m : MachineId) : State :=
  let t := s.setPort m (s.port m).completed
  match s.link m with
  | .online => deliver (refuseOnLine t m)
  | .offline => deliver (changeLink t m .online)
  | .localMode => t
  | .absent => t

/-- The queue is flushed, each request in it reported LOST, oldest first (R79, R81): a LOST LOCATE ends its locate. -/
def flushLost (s : State) (m : MachineId) : State × List RunReport :=
  (s.port m).queue.foldl
    (fun acc q =>
      if q.request.isLocate then ((failLocate acc.1 m .lost).1, acc.2 ++ (failLocate acc.1 m .lost).2) else acc)
    (s.setPort m (s.port m).flushed, [])

/-- The port goes LOCAL (R79): the link state, the flush, the report of the change. -/
def goLocal (s : State) (m : MachineId) : State :=
  let t := flushLost s m
  let u := changeLink t.1 m .localMode
  deliver (u.1, t.2 ++ u.2)

/-- A NAK LOCAL has completed the exchange (R79, R82). -/
def takeNakLocal (s : State) (m : MachineId) : State :=
  let t := s.setPort m (s.port m).completed
  match s.link m with
  | .online => goLocal t m
  | .offline => deliver (changeLink t m .localMode)
  | .localMode => t
  | .absent => t

/-! ### Faults (R80, R81) -/

/-- The port goes OFFLINE (R81 steps 2 and 3). -/
def goOffline (s : State) (m : MachineId) : State :=
  let t := flushLost s m
  let u := changeLink (t.1.setPort m { t.1.port m with recovery := Config.recoveryFields }) m .offline
  deliver (u.1, t.2 ++ u.2)

/-- The machine's fault limit is reached (R81). -/
def limitReached (s : State) (m : MachineId) (errors : Nat) : Bool := (s.machine m).params.faultLimit ≤ errors

/-- Whether the port is ONLINE or LOCAL, where faults count (R80). -/
def countsFaults (s : State) (m : MachineId) : Bool :=
  match s.link m with
  | .online => true
  | .localMode => true
  | .absent => false
  | .offline => false

/-- The count is compared with the fault limit after it was raised (R80, R81). -/
def compareErrors (s : State) (m : MachineId) : State :=
  if countsFaults s m && limitReached s m (s.port m).errors then goOffline s m else s

/-- The request on the line when its exchange fails (R80): an EDIT ON is removed, any other stays to be sent again. -/
def Port.afterFailure (p : Port) : Port :=
  match p.onLineRequest with
  | some q => if q.request.isEditOn then p.removeOnLine else p.offLine
  | none => p.offLine

/-- The report of an EDIT ON whose exchange failed (R80). -/
def Port.failureReports (p : Port) : List RunReport :=
  match p.onLineRequest with
  | some q => if q.request.isEditOn then [.editOnFailed q.event] else []
  | none => []

/-- An exchange fails with TIMEOUT or CHECK (R80); a recovery exchange raises no count (R82). -/
def failExchange (s : State) (m : MachineId) : State :=
  if countsFaults s m then
    compareErrors
      (deliver
        (s.setPort m { (s.port m).afterFailure.withProgress .failed with errors := (s.port m).errors + 1 },
          (s.port m).failureReports)) m
  else s.setPort m ((s.port m).withProgress .failed)

/-- The field's exchange has completed and no unsolicited character has been counted since. -/
def Port.quiet (p : Port) : Bool :=
  match p.exchange with
  | some x => x.progress == .completed false
  | none => false

/-- The first unsolicited character of a field (R80). -/
def countUnsolicited (s : State) (m : MachineId) : State :=
  compareErrors
    (s.setPort m { (s.port m).withProgress (.completed true) with errors := (s.port m).errors + 1 }) m

end Sys2Proof.Machine
end

