-- ==== Sys2Proof/Machine/Field.lean ====
section
/-! DEFINITION. A field start as it is taken by the blocks (R20): each machine port (R75, R82), the Machine Controller for
each machine (R89, R111, R114), the Run Controller (R126 to R133), the Cue Unit (R171) and the Effects Generator (R147). -/

namespace Sys2Proof.Machine

/-! ### A port (R75, R82) -/

/-- An OFFLINE port at a field start: a recovery exchange still waiting has timed out, the recovery count is lowered, and
at 0 the recovery poll is made (R82). -/
def recoveryField (s : State) (m : MachineId) : State :=
  if (s.port m).recovery - 1 = 0 then s.setPort m ((s.port m).recoveryPoll (fieldCount s))
  else s.setPort m { s.port m with recovery := (s.port m).recovery - 1, exchange := none }

/-- Step 2 of R75: an exchange is opened, or none by a port that its TIMEOUT has taken OFFLINE. -/
def openField (s : State) (m : MachineId) : State :=
  if countsFaults s m then s.setPort m ((s.port m).openExchange (modeOf s m) (fieldCount s))
  else s.setPort m { s.port m with exchange := none }

/-- A port takes a field start (R71, R75). -/
def portField (s : State) (m : MachineId) : State :=
  match s.link m with
  | .absent => s
  | .offline => recoveryField s m
  | .online => if (s.port m).waiting then openField (failExchange s m) m else openField s m
  | .localMode => if (s.port m).waiting then openField (failExchange s m) m else openField s m

/-! ### The Machine Controller (R89, R114) -/

/-- A CTL estimate may be formed: CTL is enabled, an anchor exists and the tally is below 256 (R89). -/
def ctlEstimate (s : State) (m : MachineId) : Option Nat :=
  match (s.port m).ctlAnchor with
  | some a =>
    if (s.machine m).params.ctlEnable && (s.port m).ctlTally < Config.ctlFrameLimit then
      some (wrap (dayOf s m) ((a : Int) + 2 * (s.port m).ctlCounter))
    else none
  | none => none

/-- The estimate stands as the TC update left it. -/
def MachineRec.keptTc (x : MachineRec) : MachineRec := { x with tcUpdated := false, stale := 0 }

/-- A CTL estimate formed. -/
def MachineRec.onCtl (x : MachineRec) (p : Nat) : MachineRec := { x with position := some p, quality := .ctl, stale := 0 }

/-- The estimate held as STALE, and the stale count raised, up to 8. -/
def MachineRec.onStale (x : MachineRec) : MachineRec := { x with quality := .stale, stale := min 8 (x.stale + 1) }

/-- The field start would hold the machine's estimate as STALE (R89). -/
def goesStale (s : State) (m : MachineId) : Bool := !(s.machine m).tcUpdated && (ctlEstimate s m).isNone

/-- The stale count brings a LOCKED machine to CHASING at this field start (R114). -/
def unlocksStale (s : State) (m : MachineId) : Bool :=
  (s.machine m).configured && goesStale s m && (s.machine m).control == .locked && 8 ≤ (s.machine m).stale + 1

/-- The Machine Controller takes a field start for one machine (R89, R111, R114). -/
def machineField (s : State) (m : MachineId) : State :=
  if !(s.machine m).configured then s
  else if (s.machine m).tcUpdated then updateMachine s m MachineRec.keptTc
  else
    match ctlEstimate s m with
    | some p => ctlEvaluation (updateMachine s m (fun x => x.onCtl p)) m (currentPosition s)
    | none =>
      if unlocksStale s m then deliver (becomeUnlocked (updateMachine s m MachineRec.onStale) m)
      else updateMachine s m MachineRec.onStale

/-! ### The delivery of a field start (R20) -/

/-- A block acts on a field start. -/
def actOnField (s : State) : Receiver → State
  | .port m => portField s m
  | .machine m => machineField s m
  | .run => runField s
  | .cue => cueLinesField s
  | .effects => effectsField s

/-- A block that has not yet taken the field start takes it; one that has is left alone. -/
def takeField (s : State) (r : Receiver) : State :=
  if s.waiting.contains r then actOnField { s with waiting := s.waiting.erase r } r else s

/-- Blocks take the field start in an order. -/
def takeAll (s : State) (rs : List Receiver) : State := rs.foldl takeField s

/-- Every block, in the order in which those that still wait take a field start before the next one comes (log entry 2). -/
def allReceivers : List Receiver :=
  Unit8.all.map .port ++ Unit8.all.map .machine ++ [.run, .cue, .effects]

/-- Every block that still waits takes the last field start. -/
def settle (s : State) : State := takeAll s allReceivers

/-- A field start is made: the field count rises by one, the parity is kept, and the blocks named take it at once, the
others later (R20). -/
def fieldStart (s : State) (parity : Parity) (takers : List Receiver) : State :=
  let t := settle s
  takeAll
    { t.updateTimeline (fun x => { x with field := some ⟨nextCount t, parity⟩ }) with waiting := allReceivers } takers

end Sys2Proof.Machine
end

