-- ==== Sys2Proof/Machine/Clocks.lean ====
section
/-! DEFINITION. The steps of the resets and of the Timeline Unit: the RESET input (R22, R194, R201), the internal field clock
(R18), the reference detector and the switch to reference (R15, R16, R19), the gap expiry (R15) and the loss expiry (R17).
A step whose event cannot occur in the state at hand changes nothing (log entry 1). -/

namespace Sys2Proof.Machine

/-- A meaning always leads to a next state. -/
abbrev Step := Host.Outcome State Fault Refusal

/-- The Timeline Unit has not gone past a moment: the time of the latest event, brought up to it. -/
def advanceTo (s : State) (t : Nat) : State := { s with now := max s.now t }

/-- One and a half nominal field periods (R15, R16). -/
def Standard.expiry (std : Standard) : Nat := 3 * std.period / 2

/-! ### Resets -/

/-- FULL_RESET: the RESET input is asserted, and the part is at its full-reset state while it is (R22, R194, R201). A transfer
in progress is abandoned: it is gone, and what its remaining clocks would carry is not recorded, which is the model's choice (log
entry 51). -/
def execFullReset (s : State) : Step := .next { State.reset with inReset := true, pending := s.pending }

/-- RESET_RELEASE: the RESET input is released, and the internal field clock starts (R18). -/
def execResetRelease (s : State) : Step :=
  if s.inReset then
    .next
      { s.updateTimeline (fun t => { t with clockBase := s.now, lastTick := none, tickParity := .field2 }) with
        inReset := false }
  else .next s

/-! ### The internal field clock (R18) -/

/-- The internal field clock runs: the part is not in reset and not on reference. -/
def clockRuns (s : State) : Bool := !s.inReset && s.timeline.refState != .onReference

/-- The time of the internal field clock's next field start. -/
def nextTick (s : State) : Nat := s.timeline.clockBase + s.timeline.standard.period

/-- The internal field clock makes a field start at a moment, with a parity. -/
def tickAt (s : State) (t : Nat) (parity : Parity) : State :=
  (advanceTo s t).updateTimeline (fun x => { x with clockBase := t, lastTick := some t, tickParity := parity })

/-- INTERNAL_FIELD_TICK: the clock's period expires and it makes a field start of the opposite parity (R18, R20). -/
def execInternalFieldTick (takers : List Receiver) (s : State) : Step :=
  if clockRuns s then
    .next (fieldStart (tickAt s (nextTick s) (opposite s.timeline.tickParity)) (opposite s.timeline.tickParity) takers)
  else .next s

/-! ### The reference detector (R15, R16, R19) -/

/-- A pulse at time t is early: less than 0.75 of a period after the last taken pulse (R15). -/
def early (s : State) (t : Nat) : Bool :=
  match s.timeline.lastPulse with
  | some p => 4 * (t - p.time) < 3 * s.timeline.standard.period
  | none => false

/-- A taken pulse at time t is a continuing pulse (R15). -/
def continuing (s : State) (t : Nat) (fieldId : Parity) : Bool :=
  match s.timeline.lastPulse with
  | some p =>
    2 * (t - p.time) ≤ 3 * s.timeline.standard.period && fieldId == opposite p.fieldId && s.timeline.goodCount != 0
  | none => false

/-- The good-pulse count after a taken pulse (R15). -/
def countAfter (s : State) (t : Nat) (fieldId : Parity) : Nat :=
  if continuing s t fieldId then min Config.goodPulses (s.timeline.goodCount + 1) else 1

/-- The pulse is taken: it becomes the last taken pulse, and the count follows (R15). -/
def takePulse (s : State) (t : Nat) (fieldId : Parity) : State :=
  (advanceTo s t).updateTimeline (fun x =>
    { x with lastPulse := some ⟨t, fieldId⟩, goodCount := countAfter s t fieldId })

/-- The state that the count sets while the part is not on reference (R15). -/
def stateOfCount (n : Nat) : RefState := if n = Config.goodPulses then .presentWaiting else .absent

/-- The count sets the reference state (R15). -/
def followCount (s : State) : State :=
  s.updateTimeline (fun x => { x with refState := stateOfCount x.goodCount })

/-- A pulse taken on reference (R16): a continuing one makes a field start, until one has come that is not continuing. -/
def pulseOnReference (s : State) (t : Nat) (fieldId : Parity) (takers : List Receiver) : State :=
  if continuing s t fieldId then
    if s.timeline.refBroken then takePulse s t fieldId
    else
      fieldStart ((takePulse s t fieldId).updateTimeline (fun x => { x with refFieldStart := some t })) fieldId takers
  else (takePulse s t fieldId).updateTimeline (fun x => { x with refBroken := true })

/-- The internal clock made a field start less than half a period before time t (R19). -/
def halfPeriodAgo (s : State) (t : Nat) : Bool :=
  match s.timeline.lastTick with
  | some k => 2 * (t - k) < s.timeline.standard.period
  | none => false

/-- Steps 1 to 3 of R19, the loss expiry timed from the pulse. -/
def goOnReference (s : State) (t : Nat) (fieldId : Parity) : State :=
  raiseNotice
    ((takePulse s t fieldId).updateTimeline (fun x =>
      { x with refState := .onReference, refFieldStart := some t, refBroken := false })) (.reference .restored)

/-- The switch to reference (R19). -/
def switchToReference (s : State) (t : Nat) (fieldId : Parity) (takers : List Receiver) : State :=
  if halfPeriodAgo s t then goOnReference s t fieldId else fieldStart (goOnReference s t fieldId) fieldId takers

/-- A continuing pulse comes in PRESENT_WAITING with the count at 16 (R19). -/
def maySwitch (s : State) (t : Nat) (fieldId : Parity) : Bool :=
  s.timeline.refState == .presentWaiting && s.timeline.goodCount == Config.goodPulses && continuing s t fieldId

/-- A taken pulse while the part runs on its internal clock. The blocks that still wait for the last field start take it
before a pulse at which the switch may be made (log entry 21). -/
def pulseOffReference (s : State) (t : Nat) (fieldId : Parity) (takers : List Receiver) : State :=
  if maySwitch s t fieldId then
    if (settle s).run.phase.atRest then switchToReference (settle s) t fieldId takers
    else followCount (takePulse (settle s) t fieldId)
  else followCount (takePulse s t fieldId)

/-- REFERENCE_PULSE: a pulse arrives at the reference input, `elapsed` after the last timed event (R15, R16, R19). -/
def execReferencePulse (elapsed : Nat) (fieldId : Parity) (takers : List Receiver) (s : State) : Step :=
  if s.inReset then .next s
  else if early s (s.now + elapsed) then .next (advanceTo s (s.now + elapsed))
  else if s.timeline.refState = .onReference then .next (pulseOnReference s (s.now + elapsed) fieldId takers)
  else .next (pulseOffReference s (s.now + elapsed) fieldId takers)

/-- The state after the gap expiry: below PRESENT_WAITING, unless the part is on reference (R15). -/
def afterGap : RefState → RefState
  | .absent => .absent
  | .presentWaiting => .absent
  | .onReference => .onReference

/-- GAP_EXPIRY: 1.5 periods have passed after the last taken pulse; the count goes to 0 (R15). -/
def execGapExpiry (s : State) : Step :=
  match s.timeline.lastPulse with
  | some p =>
    if s.inReset then .next s
    else
      .next
        ((advanceTo s (p.time + s.timeline.standard.expiry)).updateTimeline (fun x =>
          { x with goodCount := 0, refState := afterGap x.refState }))
  | none => .next s

/-! ### The loss of reference (R17) -/

/-- The parity opposite to the last field start. -/
def oppositeToLast (s : State) : Parity :=
  match s.timeline.field with
  | some f => opposite f.parity
  | none => .field1

/-- Steps 1 and 2 of R17 up to the field start. -/
def loseReference (s : State) (t : Nat) : State :=
  (tickAt s t (oppositeToLast s)).updateTimeline (fun x =>
    { x with refState := .absent, refFieldStart := none, refBroken := false })

/-- R17 on the blocks' settled state. -/
def loss (s : State) (t : Nat) (takers : List Receiver) : State :=
  holdRun
    (raiseNotice (fieldStart (loseReference s t) (oppositeToLast s) takers) (.reference .lost)) .referenceLost none

/-- LOSS_EXPIRY: 1.5 periods have passed after the last field start made from a pulse (R16, R17). -/
def execLossExpiry (takers : List Receiver) (s : State) : Step :=
  match s.timeline.refState, s.timeline.refFieldStart with
  | .onReference, some f =>
    if s.inReset then .next s else .next (loss (settle s) (f + s.timeline.standard.expiry) takers)
  | .onReference, none => .next s
  | .absent, _ => .next s
  | .presentWaiting, _ => .next s

end Sys2Proof.Machine
end

