-- ==== Sys2Proof/Machine/Flags.lean ====
section
/-! DEFINITION. The flags the part computes: the attention line (R185), the two loss flags of the console link (R181,
R187), the event flags as a byte (R196), and the presence byte and wipe flags of a record block (R197). -/

namespace Sys2Proof.Machine

/-- The attention line: asserted while a reply or a notice waits (R185), released while the RESET input is asserted. -/
def State.attention (s : State) : Bool := !s.inReset && !(s.console.replies.isEmpty && s.console.notices.isEmpty)

/-- A request went unanswered: the overrun flag is set (R181). -/
def setOverrun (s : State) : State := s.updateConsole (fun c => { c with overrun := true })

/-- Both loss flags cleared (R190, R193). -/
def clearLossFlags (s : State) : State := s.updateConsole (fun c => { c with overrun := false, overflow := false })

/-- The event flags: bit 0 INCOMPLETE, bit 1 CHANGED (R196). -/
def EventFlags.code (f : EventFlags) : Nat := (if f.incomplete then 1 else 0) + (if f.changed then 2 else 0)

/-- The presence byte of a record block in a reply, its positions bit set (R197). -/
def Record.presence (r : Record) : Nat :=
  (if r.source2.isSome then 1 else 0) + (if r.transition.isSome then 2 else 0) + (if r.wipe.isSome then 4 else 0)
    + (if r.box.isSome then 8 else 0) + (if r.split.isSome then 16 else 0) + (if r.rate.isSome then 32 else 0) + 64

/-- The anchor byte of a cue entry: bit 0 OUT, bit 1 record-only (R197). -/
def CueEntry.anchorCode (c : CueEntry) : Nat :=
  (match c.anchor with | .recordIn => 0 | .recordOut => 1) + (if c.recordOnly then 2 else 0)

end Sys2Proof.Machine
end

