-- ==== Sys2Proof/Machine/Messages.lean ====
section
/-! DEFINITION. Messages out of the part: the record block and the event data (R197), the machine record (R99), the run
record (R141), the data of the other read requests, and the bytes of replies and notices (R189, R195, R196). -/

namespace Sys2Proof.Machine

/-! ### Events -/

/-- A cue entry's five bytes. -/
def cueEntryBytes (c : CueEntry) : List Byte := u8 c.line.toNat ++ u8 c.anchorCode ++ i16 c.offset ++ u8 c.width

/-- n zero bytes, sent for an absent field of a record block. -/
def zeros (n : Nat) : List Byte := List.replicate n 0#8

/-- A source's machine and source in as a label, or zeros. -/
def sourceBytes (s : State) : Option Source → List Byte
  | some x => u8 x.machine.toNat ++ labelBytes (machineLabel s x.machine x.sourceIn)
  | none => zeros 6

/-- The wipe's sx, sy and flags, or zeros. -/
def wipeBytes : Option Wipe → List Byte
  | some w => i16 w.sx ++ u16 w.sy ++ flagByte w.reverse
  | none => zeros 5

/-- The box's columns, lines and mask, or zeros. -/
def boxBytes : Option KeyBox → List Byte
  | some b => u16 b.kx0 ++ u16 b.kx1 ++ u16 b.ky0 ++ u16 b.ky1 ++ u8 b.mask
  | none => zeros 9

/-- The record block of a reply (R197). -/
def recordBlock (s : State) (r : Record) : List Byte :=
  u8 r.kind.code ++ u8 r.tracks.code ++ u8 r.presence ++ flagByte r.colour ++ labelBytes (timelineLabel s r.recordIn)
    ++ u32 r.duration ++ sourceBytes s (some r.source1) ++ sourceBytes s r.source2 ++ u16 (r.transition.getD 0)
    ++ wipeBytes r.wipe ++ boxBytes r.box ++ i16 (r.split.getD 0) ++ u16 (r.rate.getD 0) ++ u8 r.cues.length
    ++ (r.cues.map cueEntryBytes).flatten

/-- The READ EVENT and READ ORDINAL data (R38, R197). -/
def eventData (s : State) (e : Event) (ordinal : Option Nat) : List Byte :=
  u16 e.handle ++ u32 e.insertion ++ u8 e.state.code ++ u8 e.flags.code ++ recordBlock s e.record
    ++ labelBytes (timelineLabel s (e.record.recordOut (dayRec s))) ++ u32 (startOffset s e.record)
    ++ u32 (endOffset s e.record) ++ countOrNone ordinal

/-- The labels of a record's source ins, source 1 first. -/
def sourceInBytes (s : State) (r : Record) : List Byte :=
  labelBytes (machineLabel s r.source1.machine r.source1.sourceIn)
    ++ (match r.source2 with
        | some x => labelBytes (machineLabel s x.machine x.sourceIn)
        | none => [])

/-- The data of an accepted change but a DELETE: the target as it stands, and the nudge of each source (R48). -/
def changedData (s : State) (e : Event) (nudges : List Nat) : List Byte :=
  u16 e.handle ++ u32 e.insertion ++ u8 e.state.code ++ u8 e.flags.code ++ u32 (startOffset s e.record)
    ++ u32 (endOffset s e.record) ++ countOrNone (ordinalOf s e.handle) ++ labelBytes (timelineLabel s e.record.recordIn)
    ++ labelBytes (timelineLabel s (e.record.recordOut (dayRec s))) ++ sourceInBytes s e.record
    ++ (nudges.map u32).flatten

/-- The ripple shift applied and the number of events moved, of a request given in RIPPLE mode (R48). -/
def rippleData (shift : Int) (moved : Nat) : List Byte := i32 shift ++ u16 moved

/-! ### Machines -/

/-- A position with its quality (R196): with no position the label is absent and the quality FFh. -/
def positionBytes (label : Option Label) (q : Quality) : List Byte :=
  labelOrAbsent label ++ (match label with | some _ => u8 q.code | none => u8 255)

/-- The ten parameters of a machine, in the order of R95. -/
def paramBytes (p : MachineParams) : List Byte :=
  u8 p.mode.code ++ u8 p.gain ++ u8 p.lockWindow ++ u8 p.lockCount ++ u8 p.unlockCount ++ u16 p.shuttleLimit
    ++ u8 (p.lag % 256).toNat ++ u8 p.editDelay ++ u8 p.faultLimit ++ flagByte p.ctlEnable

/-- The locate of a machine record: target label, owner, acknowledged flag and mismatch count (R196). -/
def locateBytes (s : State) (m : MachineId) : Option Locate → List Byte
  | some l => labelBytes (machineLabel s m l.target) ++ u8 l.owner.code ++ flagByte l.acknowledged ++ u16 l.mismatches
  | none => labelOrAbsent none ++ u8 255 ++ [Config.absentFlag] ++ countOrNone none

/-- The machine record as READ MACHINE carries it, its fields in the order of R93 (R99, R196). -/
def machineData (s : State) (m : MachineId) : List Byte :=
  flagByte (s.machine m).configured ++ u8 (if s.recorder = some m then 1 else 0) ++ paramBytes (s.machine m).params
    ++ u8 (s.link m).code ++ namedOrAbsent ((s.machine m).transport.map Transport.code)
    ++ flagByte (s.machine m).parkedFlag ++ u8 (s.machine m).control.code ++ locateBytes s m (s.machine m).locate
    ++ flagByte (s.machine m).claimed ++ leaderBytes (s.machine m).leader
    ++ positionBytes ((s.machine m).position.map (machineLabel s m)) (s.machine m).quality ++ u16 (s.machine m).stale
    ++ u16 (s.machine m).inWindow ++ u16 (s.machine m).outWindow
    ++ labelOrAbsent ((s.machine m).markIn.map (machineLabel s m))
    ++ labelOrAbsent ((s.machine m).markOut.map (machineLabel s m)) ++ speedOrNone (s.machine m).lastSpeed

/-! ### The run -/

/-- The record position of a timeline offset. -/
def positionOfOffset (s : State) (offset : Nat) : Nat := wrap (dayRec s) ((s.timeline.origin : Int) + (offset : Int))

/-- The scope of a run: absent, a handle, or two labels. -/
def scopeBytes (s : State) : Option Scope → List Byte
  | none => u8 255
  | some (.single h) => u8 0 ++ u16 h
  | some (.range first last) =>
    u8 1 ++ labelBytes (timelineLabel s (positionOfOffset s first)) ++ labelBytes (timelineLabel s (positionOfOffset s last))

/-- The cursor: its start offset and insertion number. The manual gives the insertion number no absent value (log
entry 12). -/
def cursorBytes (c : Cursor) : List Byte := u32 c.offset ++ u32 (c.insertion.getD Config.absentInsertion)

/-- The edit-on fields as a list, each a label and a track set. -/
def editOnBytes (s : State) (ons : List EditOn) : List Byte :=
  u8 ons.length ++ (ons.map (fun x => labelBytes (timelineLabel s x.position) ++ u8 x.tracks.code)).flatten

/-- The run times as labels (R141). -/
def timesBytes (s : State) : Option RunTimes → List Byte
  | some t =>
    labelBytes (timelineLabel s t.t0) ++ editOnBytes s t.editOns ++ labelBytes (timelineLabel s t.e0)
      ++ labelBytes (timelineLabel s t.syncDeadline) ++ labelBytes (timelineLabel s t.editOff)
      ++ labelBytes (timelineLabel s t.postrollEnd)
  | none => []

/-- While the phase is active, the run times and the timeline position of the last field start (R141). -/
def activeRunBytes (s : State) : List Byte :=
  if s.run.phase.active then
    timesBytes s s.run.times ++ labelOrAbsent ((currentPosition s).map (timelineLabel s))
  else []

/-- The READ RUN data (R141). -/
def runData (s : State) : List Byte :=
  namedOrAbsent (s.run.mode.map RunMode.code) ++ scopeBytes s s.run.scope ++ u8 s.run.phase.code
    ++ countOrNone s.run.current ++ namedOrAbsent (s.run.holdCause.map HoldCause.code)
    ++ flagByte s.run.holdPending.isSome ++ namedOrAbsent (s.run.holdPending.map (fun p => p.cause.code))
    ++ cursorBytes s.run.cursor ++ u16 s.run.eventsDone ++ u8 s.run.editSet.code ++ activeRunBytes s

/-- The four run parameters in force (R191). -/
def runParamBytes (p : RunParams) : List Byte :=
  u16 p.preroll ++ u16 p.postroll ++ u16 p.cueTimeout ++ u16 p.syncMargin

/-! ### Effects, cue lines and status -/

/-- A span list as a list element (R196). -/
def spanListBytes (l : List Span) : List Byte := u8 l.length ++ (l.map (fun x => u16 x.start ++ u16 x.stop)).flatten

/-- The step number of a TRANSITION, FFFFh in the other forms. -/
def formBytes : FrameForm → List Byte
  | .transition j => u8 (FrameForm.transition j).code ++ u16 j
  | .manual => u8 FrameForm.manual.code ++ u16 65535
  | .leadIn => u8 FrameForm.leadIn.code ++ u16 65535
  | .flip => u8 FrameForm.flip.code ++ u16 65535

/-- The READ EFFECTS data, for a line or for none (R164). A line of the standard in force that the current frame, formed or
frozen before a SET STANDARD, does not have is answered with an empty span list: the model's choice (log entry 45). -/
def effectsData (s : State) (line : Option Nat) : List Byte :=
  busByte s.effects.manual ++ flagByte s.effects.freeze ++ busByte s.effects.frame.aSelect
    ++ busByte s.effects.frame.bSelect ++ u16 s.effects.frame.level ++ formBytes s.effects.form
    ++ countOrNone (s.effects.programme.map Event.handle)
    ++ (match line with
        | some l => spanListBytes (s.effects.frame.lines.getD l [])
        | none => [])

/-- A compare: its firing position and width, or absent (R196). -/
def compareBytes (s : State) : Option Compare → List Byte
  | some c => labelBytes (timelineLabel s c.position) ++ u8 c.width
  | none => labelOrAbsent none ++ u8 0

/-- The READ CUE LINE data (R177). That the pulse counter goes out in one byte, as a width, is the model's choice (log
entry 46). -/
def cueLineData (s : State) (g : CueLineId) : List Byte :=
  u8 (s.cueLine g).polarity.code ++ flagByte (s.cueLine g).active ++ u8 (s.cueLine g).counter
    ++ compareBytes s (s.cueLine g).armed ++ compareBytes s (s.cueLine g).buffered ++ u8 (s.cueLine g).pendingList.length
    ++ ((s.cueLine g).pendingList.map (fun c => compareBytes s (some c))).flatten
    ++ countOrNone (s.cues.cueSet.map CueSet.handle) ++ namedOrAbsent (s.cues.cueSet.map (fun c => c.mode.code))

/-- The READ STATUS data (R190). -/
def statusData (s : State) : List Byte :=
  u8 s.run.phase.code ++ u8 s.timeline.refState.code ++ u8 s.cues.stop.code ++ flagByte s.console.overrun
    ++ flagByte s.console.overflow ++ u16 s.store.events.length ++ machineOrNone s.recorder
    ++ u8 s.timeline.standard.code ++ u16 s.console.notices.length

/-! ### Whole messages (R195) -/

/-- A reply: length, request code, tag, result code, data. -/
def replyBytes (r : Reply) : List Byte := u8 (3 + r.data.length) ++ r.code :: r.tag :: (u8 r.result.code ++ r.data)

/-- A notice's code (R195). -/
def Notice.code : Notice → Nat
  | .runPhase _ _ _ => 0x80
  | .runHeld _ _ _ _ _ => 0x81
  | .runEnd _ _ => 0x82
  | .eventState _ _ _ => 0x83
  | .machineState _ _ _ _ _ _ _ => 0x84
  | .locateDone _ _ _ => 0x85
  | .locateFailed _ _ _ => 0x86
  | .reference _ => 0x87
  | .allStop _ => 0x88

/-- A notice's subject, two bytes (section 10.2). -/
def Notice.subject : Notice → Nat
  | .runPhase p _ _ => p.code
  | .runHeld c _ _ _ _ => c.code
  | .runEnd (some m) _ => m.code
  | .runEnd none _ => 255
  | .eventState h _ _ => h
  | .machineState m _ _ _ _ _ _ => m.toNat
  | .locateDone m _ _ => m.toNat
  | .locateFailed m _ _ => m.toNat
  | .reference x => x.code
  | .allStop x => x.code

/-- A notice's data, in the order of R189's table. -/
def Notice.data : Notice → List Byte
  | .runPhase _ m h => namedOrAbsent (m.map RunMode.code) ++ countOrNone h
  | .runHeld _ m h p n => machineOrNone m ++ countOrNone h ++ u8 (holdPhaseCode p) ++ u16 n
  | .runEnd _ n => u16 n
  | .eventState _ st fl => u8 st.code ++ u8 fl.code
  | .machineState _ l c cl ld p q =>
    u8 l.code ++ u8 c.code ++ flagByte cl ++ leaderBytes ld ++ positionBytes p q
  | .locateDone _ t p => labelBytes t ++ labelBytes p
  | .locateFailed _ t r => labelBytes t ++ u8 r.code
  | .reference _ => []
  | .allStop _ => []

/-- A notice: length, notice code, subject, data. -/
def noticeBytes (n : Notice) : List Byte := u8 (3 + n.data.length) ++ u8 n.code ++ u16 n.subject ++ n.data

end Sys2Proof.Machine
end

