-- ==== Sys2Proof/Machine/ConsoleLink.lean ====
section
/-! DEFINITION. The steps of the console link: a transfer's start and end, and the receipt of a request (R179 to R187,
R194, R195). A step whose event cannot occur in the state at hand changes nothing (log entry 1). -/

namespace Sys2Proof.Machine

/-- The outgoing message that a transfer chooses, and where it stands: the oldest reply, else the oldest notice, else the
empty message (R184). -/
def chooseOutgoing (c : ConsolePort) : List Byte × OutgoingSource :=
  match c.replies, c.notices with
  | r :: _, _ => (replyBytes r, .replyQueue)
  | [], n :: _ => (noticeBytes n, .noticeQueue)
  | [], [] => ([0#8], .noQueue)

/-- A transfer as it begins; one that begins while the RESET input is asserted sends the empty message (R194). -/
def newTransfer (s : State) : Transfer :=
  if s.inReset then { outgoing := [0#8], source := .noQueue, received := false, clocked := 0, dead := true }
  else
    { outgoing := (chooseOutgoing s.console).1, source := (chooseOutgoing s.console).2, received := false, clocked := 0,
      dead := false }

/-- The filler byte FFh, which the part sends once its message is sent (R195). -/
def fillerByte : Byte := 0xFF#8

/-- The bytes that the part sends while n bytes are clocked: its message, then filler for the rest of the transfer (R179,
R195); while the RESET input is asserted the message is the empty one (R201). -/
def Transfer.sentBytes (t : Transfer) (n : Nat) : List Byte :=
  t.outgoing.take n ++ List.replicate (n - t.outgoing.length) fillerByte

/-- TRANSFER_START: the console asserts the link select (R179, R184). -/
def execTransferStart (s : State) : Step :=
  match s.console.transfer with
  | none => .next (s.updateConsole (fun c => { c with transfer := some (newTransfer s), sent := [] }))
  | some _ => .next s

/-! ### Receipt (R180, R181) -/

/-- A request arrives at the inbound queue: it joins it, or is discarded with the overrun flag set (R181). -/
def joinInbound (s : State) (q : RequestMessage) : State :=
  if s.console.inbound.length < Config.inboundCapacity then
    s.updateConsole (fun c => { c with inbound := c.inbound ++ [q] })
  else setOverrun s

/-- A message received whole: the empty message is no request, one too short for a code and a tag is truncated (R180). -/
def receiveMessage (s : State) : List Byte → State
  | [] => s
  | [_] => s
  | [_, _] => setOverrun s
  | _ :: code :: tag :: params => joinInbound s ⟨code, tag, params⟩

/-- The console's message of the transfer has come, with the n bytes clocked for it; as many have gone out. -/
def markReceived (s : State) (t : Transfer) (n : Nat) : State :=
  s.updateConsole (fun c =>
    { c with
      transfer := some { t with received := true, clocked := t.clocked + n }, sent := t.sentBytes (t.clocked + n) })

/-- The bytes are a whole console message: the length byte gives the number that follow (R195). -/
def isWhole : List Byte → Bool
  | [] => false
  | n :: body => n.toNat == body.length

/-- REQUEST_RECEIVED: the last byte of the console's message has arrived (R180, R181). -/
def execRequestReceived (bytes : List Byte) (s : State) : Step :=
  match s.console.transfer with
  | some t =>
    if !t.dead && !t.received && isWhole bytes then .next (markReceived (receiveMessage s bytes) t bytes.length)
    else .next s
  | none => .next s

/-! ### The end of a transfer (R180, R184, R186) -/

/-- The console's bytes at the end of a transfer that has not yet received a message: whole, they are received; else they
are a truncated request (R180). A transfer in which no byte was clocked carried no request (log entry 22). -/
def receiveRest (s : State) : List Byte → State
  | [] => s
  | n :: body => if n.toNat ≤ body.length then receiveMessage s (n :: body.take n.toNat) else setOverrun s

/-- The head of the notice queue is a MACHINE_STATE for which a newer one waits (R186). -/
def superseded : List Notice → Bool
  | [] => false
  | n :: rest =>
    match n.stateMachine? with
    | some m => rest.any (Notice.isStateOf m)
    | none => false

/-- The outgoing message leaves its queue when it was sent whole; a superseded notice leaves it in any case (R184, R186). -/
def removeOutgoing (c : ConsolePort) (t : Transfer) (complete : Bool) : ConsolePort :=
  match t.source with
  | .noQueue => c
  | .replyQueue => if complete then { c with replies := c.replies.drop 1 } else c
  | .noticeQueue => if complete || superseded c.notices then { c with notices := c.notices.drop 1 } else c

/-- TRANSFER_END: the console releases the link select, `bytes` having been clocked since the request was received, or
since the transfer began if none was (R179, R180, R184). -/
def execTransferEnd (bytes : List Byte) (s : State) : Step :=
  match s.console.transfer with
  | some t =>
    .next
      ((if t.received || t.dead then s else receiveRest s bytes).updateConsole (fun c =>
        { removeOutgoing c t (t.outgoing.length ≤ t.clocked + bytes.length) with
          transfer := none, sent := t.sentBytes (t.clocked + bytes.length) }))
  | none => .next s

end Sys2Proof.Machine
end

