-- ==== Sys2Proof/Machine/DeckLink.lean ====
section
/-! DEFINITION. The steps of the machine ports and of lock: exchanges, replies, faults and characters on the deck links
(R75 to R82), CTL pulses (R87), lock and unlock (R113, R114). A step whose event cannot occur in the state at hand changes
nothing (log entry 1). -/

namespace Sys2Proof.Machine

/-- The port has not yet taken the last field start. -/
def portDue (s : State) (m : MachineId) : Bool := s.waiting.contains (.port m)

/-- EXCHANGE_TIMEOUT: a field start finds the port's exchange still waiting for its reply (R75, R76, R80). -/
def execExchangeTimeout (m : MachineId) (s : State) : Step :=
  if portDue s m && (s.port m).waiting then .next (takeField s (.port m)) else .next s

/-- STATUS_REPLY: the last character of a well-formed STATUS arrives (R76, R77). -/
def execStatusReply (m : MachineId) (chars : List Byte) (s : State) : Step :=
  match statusOf s m chars with
  | some p => .next (takeStatus s m p)
  | none => .next s

/-- NAK_REFUSED: the last character of a NAK with reason REFUSED arrives (R78). -/
def execNakRefused (m : MachineId) (chars : List Byte) (s : State) : Step :=
  if replyClass s m chars = some .nakRefused then .next (takeNakRefused s m) else .next s

/-- NAK_LOCAL: the last character of a NAK with reason LOCAL arrives (R79). -/
def execNakLocal (m : MachineId) (chars : List Byte) (s : State) : Step :=
  if replyClass s m chars = some .nakLocal then .next (takeNakLocal s m) else .next s

/-- CHECK_FAILURE: a character makes the reply fail with CHECK (R76, R80). -/
def execCheckFailure (m : MachineId) (chars : List Byte) (faulty : Bool) (s : State) : Step :=
  if checkFails s m chars faulty then .next (failExchange s m) else .next s

/-- UNSOLICITED_CHARACTER: a character arrives after the field's exchange has completed (R80). It is discarded; the first
of a field is counted by an ONLINE or LOCAL port. -/
def execUnsolicitedCharacter (m : MachineId) (s : State) : Step :=
  if countsFaults s m && (s.port m).quiet then .next (countUnsolicited s m) else .next s

/-- One more error takes the port OFFLINE (R81). -/
def nextErrorOffline (s : State) (m : MachineId) : Bool :=
  countsFaults s m && limitReached s m ((s.port m).errors + 1)

/-- PORT_OFFLINE: an error raises the count to the fault limit, and the port goes OFFLINE (R80, R81). -/
def execPortOffline (m : MachineId) (cause : PortError) (s : State) : Step :=
  if nextErrorOffline s m then
    match cause with
    | .timeout => if portDue s m && (s.port m).waiting then .next (takeField s (.port m)) else .next s
    | .check chars faulty => if checkFails s m chars faulty then .next (failExchange s m) else .next s
    | .unsolicited => if (s.port m).quiet then .next (countUnsolicited s m) else .next s
  else .next s

/-- RECOVERY_POLL: at a field start the recovery count of an OFFLINE port reaches 0 (R82). -/
def execRecoveryPoll (m : MachineId) (s : State) : Step :=
  if portDue s m && s.link m == .offline && (s.port m).recovery - 1 == 0 then .next (takeField s (.port m)) else .next s

/-- CTL_PULSE: a pulse on the port's CTL input, with the direction it shows (R87). -/
def execCtlPulse (m : MachineId) (forward : Bool) (s : State) : Step :=
  if s.link m != .absent && (s.machine m).params.ctlEnable then .next (s.setPort m ((s.port m).countPulse forward))
  else .next s

/-- LOCK: a STATUS whose TC evaluation brings a CHASING machine to LOCKED (R113). -/
def execLock (m : MachineId) (chars : List Byte) (s : State) : Step :=
  match statusOf s m chars with
  | some p =>
    match statusError s m p with
    | some e => if locksAt (s.machine m) e then .next (takeStatus s m p) else .next s
    | none => .next s
  | none => .next s

/-- A STATUS unlocks a LOCKED machine (R114). -/
def statusUnlocks (s : State) (m : MachineId) (p : StatusPayload) : Bool :=
  match statusError s m p with
  | some e => unlocksAt (s.machine m) e
  | none => false

/-- UNLOCK: a LOCKED machine becomes CHASING, at a STATUS or at the field start that brings its stale count to 8 (R114). -/
def execUnlock (m : MachineId) (cause : UnlockCause) (s : State) : Step :=
  match cause with
  | .status chars =>
    match statusOf s m chars with
    | some p => if statusUnlocks s m p then .next (takeStatus s m p) else .next s
    | none => .next s
  | .stale =>
    if s.waiting.contains (.machine m) && unlocksStale s m then .next (takeField s (.machine m)) else .next s

/-- REPLY_CHARACTER: a character of a reply that is not its last arrives (R76). -/
def execReplyCharacter (m : MachineId) (char : Byte) (s : State) : Step :=
  match (s.port m).received with
  | some rx =>
    if classify (rx ++ [char]) = .incomplete then .next (s.setPort m ((s.port m).withProgress (.listening (rx ++ [char]))))
    else .next s
  | none => .next s

/-- The request is still being sent. -/
def Port.sending (p : Port) : Bool :=
  match p.exchange with
  | some x => x.progress == .sending
  | none => false

/-- REQUEST_SENT: the last character of the request has been sent, and the port listens for the reply (R75). -/
def execRequestSent (m : MachineId) (s : State) : Step :=
  if (s.port m).sending then .next (s.setPort m ((s.port m).withProgress (.listening []))) else .next s

end Sys2Proof.Machine
end

