-- ==== Sys2Proof/Machine/FieldSteps.lean ====
section
/-! DEFINITION. The steps that the Run Controller and the Cue Unit make when they take a field start: the roll and the cue
timeout (R126, R127), the sync deadline (R128), the edit-on and edit-off fields (R129, R131), the postroll end (R133), the
firing and the end of a cue pulse (R171), and the STOP input (R175, R176). A step whose event is not at hand changes nothing
(log entry 1). -/

namespace Sys2Proof.Machine

/-! ### The Run Controller -/

/-- The Run Controller has not yet taken the last field start. -/
def runWaits (s : State) : Bool := s.waiting.contains .run

/-- ROLL (R127). -/
def execRoll (s : State) : Step :=
  if runWaits s && rollDue (raiseCueing s) then .next (takeField s .run) else .next s

/-- CUE_TIMEOUT (R126). -/
def execCueTimeout (s : State) : Step :=
  if runWaits s && !rollDue (raiseCueing s) && cueTimeoutDue (raiseCueing s) then .next (takeField s .run) else .next s

/-- SYNC_DEADLINE (R128). -/
def execSyncDeadline (s : State) : Step := if runWaits s && deadlineDue s then .next (takeField s .run) else .next s

/-- EDIT_ON_FIELD (R129). -/
def execEditOnField (s : State) : Step :=
  if runWaits s && (editOnAt (syncField s)).isSome then .next (takeField s .run) else .next s

/-- EDIT_OFF_FIELD (R131). -/
def execEditOffField (s : State) : Step :=
  if runWaits s && editOffDue (editOnField (syncField s)) then .next (takeField s .run) else .next s

/-- POSTROLL_END (R133). -/
def execPostrollEnd (s : State) : Step :=
  if runWaits s && postrollDue (editOffField (editOnField (syncField s))) then .next (takeField s .run) else .next s

/-! ### The Cue Unit -/

/-- The Cue Unit has not yet taken the last field start. -/
def cueWaits (s : State) : Bool := s.waiting.contains .cue

/-- CUE_FIRE: the armed compare of a line is reached (R171). -/
def execCueFire (g : CueLineId) (s : State) : Step :=
  if cueWaits s && !s.stopAsserted && (s.cueLine g).fires (dayRec s) (currentPosition s) then .next (takeField s .cue)
  else .next s

/-- CUE_PULSE_END: the counter of an ACTIVE line reaches 0 (R171). -/
def execCuePulseEnd (g : CueLineId) (s : State) : Step :=
  if cueWaits s && !s.stopAsserted && (s.cueLine g).ends then .next (takeField s .cue) else .next s

/-! ### The STOP input (R175, R176) -/

/-- The recognised STOP state set, and ALL_STOP raised (R175 steps 1 and 4, R176). -/
def recogniseStop (s : State) (x : StopState) : State :=
  raiseNotice (s.updateCues (fun u => { u with stop := x })) (.allStop x)

/-- What a block does when the assertion is reported to it (R116, R135, R161). -/
def stopReported (s : State) : StopReport → State
  | .machineController => deliver (allStop s)
  | .runController => holdRun s .allStop none
  | .effectsGenerator => setFreeze s true

/-- The reports of the assertion in the order in which they reach the blocks: the ones named, then the others. -/
def stopOrder (order : List StopReport) : List StopReport :=
  order ++ [StopReport.machineController, .runController, .effectsGenerator].filter (fun x => !order.contains x)

/-- Steps 1 to 4 of R175. -/
def assertStop (s : State) : State := recogniseStop (quietLines (discardCues s)) .asserted

/-- The Cue Unit's part of a field start taken. -/
def withoutCue (s : State) : State := { s with waiting := s.waiting.erase .cue }

/-- STOP_ASSERTION: at a field start the Cue Unit finds the STOP input asserted (R175). -/
def execStopAssertion (order : List StopReport) (s : State) : Step :=
  if cueWaits s && !s.stopAsserted then .next ((stopOrder order).foldl stopReported (assertStop (withoutCue s)))
  else .next s

/-- STOP_RELEASE: at a field start the Cue Unit finds the STOP input released (R176, R162). The Machine Controller and the
Run Controller take no action on the report. -/
def execStopRelease (s : State) : Step :=
  if cueWaits s && s.stopAsserted then .next (cueLinesField (setFreeze (recogniseStop (withoutCue s) .released) false))
  else .next s

end Sys2Proof.Machine
end

