-- ==== Sys2Proof/Machine/Handler.lean ====
section
/-! DEFINITION. The Request Handler (R182, R183): taking the request at the head of the inbound queue, converting its
labels, and placing the reply; then the requests of the Console Port (R190, R192, R193) and of the Timeline Unit (R13). -/

namespace Sys2Proof.Machine

/-! ### Taking a request -/

/-- The reply queue has room, so the head request may be taken (R182). -/
def replyRoom (s : State) : Bool := s.console.replies.length < Config.replyCapacity

/-- The state with the head request taken from the inbound queue. -/
def dequeued (s : State) (rest : List RequestMessage) : State := s.updateConsole (fun c => { c with inbound := rest })

/-- The reply to a request: its code and tag with the answer's result and data (R183). -/
def replyTo (q : RequestMessage) (a : Answer) : State := placeReply a.state ⟨q.code, q.tag, a.result, a.data⟩

/-- The head request is taken when it lays out a request that `owner` serves, and when the reply queue has room (R182); it
is answered by the owner on the state without it. A head that is some other request waits for its own row. -/
def serveHead (s : State) (owner : Request → Option (State → Answer)) : State :=
  match s.console.inbound with
  | [] => s
  | q :: rest =>
    if replyRoom s then
      match (formRequest q).bind owner with
      | some serve => replyTo q (serve (dequeued s rest))
      | none => s
    else s

/-- UNKNOWN_REQUEST: the head request has an unknown code or a wrong layout, and is answered BAD_REQUEST (R182, R195). -/
def execUnknownRequest (s : State) : Step :=
  match s.console.inbound with
  | [] => .next s
  | q :: rest =>
    if replyRoom s && (formRequest q).isNone then .next (replyTo q (refuseWith (dequeued s rest) .badRequest)) else .next s

/-! ### Labels (R5, R7, R182 stage 2) -/

/-- A label converted, or its refusal: the position, and whether a dropped label was advanced. -/
abbrev Converted := Except Result (Nat × Bool)

/-- A label read in a mode (R5, R7). -/
def convert (mode : LabelMode) (l : Label) : Converted :=
  match consoleLabel mode l with
  | some x => .ok x
  | none => .error .badTimecode

/-- A label read in the mode of a machine, refused NOT_CONFIGURED for an unconfigured one (R5). DEDUCED: that it is so refused
even with an element out of range, since the ranges are those of a mode that the machine does not have; R5 and R182 do not rank
the two results (log entry 48). -/
def convertFor (s : State) (m : MachineId) (l : Label) : Converted :=
  if (s.machine m).configured then convert (modeOf s m) l else .error .notConfigured

/-- A label read in the timeline domain. -/
def convertRecord (s : State) (l : Label) : Converted := convert (timelineMode s) l

/-- The label used, carried when a dropped label was advanced (R7). -/
def labelUsed (label : Label) (advanced : Bool) : List Byte := if advanced then labelBytes label else []

/-- ACCEPTED, or ADJUSTED when a dropped label was advanced (R188). -/
def acceptedOr (advanced : Bool) : Result := if advanced then .adjusted else .accepted

/-- The run is IDLE. -/
def runIdle (s : State) : Bool := s.run.phase == .idle

/-! ### The Console Port -/

/-- READ STATUS (R190). -/
def answerReadStatus (s : State) : Answer := ⟨clearLossFlags s, .ok, statusData s⟩

/-- READ_STATUS: the head request is READ STATUS. -/
def execReadStatus (s : State) : Step :=
  .next (serveHead s (fun r => match r with | .readStatus => some answerReadStatus | _ => none))

/-- A port at RESTART: its queue emptied, its exchange cancelled, its error count 0 (R91). -/
def Port.restarted (p : Port) : Port := { p with queue := [], exchange := none, errors := 0 }

/-- The machine ports at RESTART. -/
def restartPorts (s : State) : State := { s with ports := s.ports.map Port.restarted }

/-- The Machine Controller at RESTART for one machine: STOP for an ONLINE one, then FREE, unclaimed and without leader,
locate or lock counts (R118). A locate that ends here raises no LOCATE_FAILED, as R104 and R118 have it, although R193 names
that notice among those of the work (log entry 44). -/
def restartMachine (s : State) (m : MachineId) : State :=
  if (s.machine m).configured then changeMachine (tryStop s m) m MachineRec.released else s

/-- The Machine Controller at RESTART. That the machines are dealt with in the order M0 to M7 is the model's choice: R118
names no order (log entry 49). -/
def restartMachines (s : State) : State := Unit8.all.foldl restartMachine s

/-- The blocks' RESTART work, in the order of R192. -/
def restartBlocks (s : State) : State :=
  restartEffects (restartMachines (restartRunEnd (restartStore (restartRunStart (restartPorts s)))))

/-- A transfer whose message has been removed with its queue (R193). -/
def Transfer.orphaned (t : Transfer) : Transfer := { t with source := .noQueue }

/-- The Console Port's queues emptied and its flags cleared at RESTART (R193). -/
def restartConsole (s : State) : State :=
  s.updateConsole (fun c =>
    { c with
      inbound := [], replies := [], notices := [], overrun := false, overflow := false,
      transfer := c.transfer.map Transfer.orphaned })

/-- The RESTART data: the requests, replies and notices discarded, and the flags as they stood (R193). -/
def restartData (s : State) : List Byte :=
  u16 s.console.inbound.length ++ u16 s.console.replies.length ++ u16 s.console.notices.length
    ++ flagByte s.console.overrun ++ flagByte s.console.overflow

/-- RESTART (R192, R193). -/
def answerRestart (s : State) : Answer := ⟨restartConsole (restartBlocks s), .ok, restartData (restartBlocks s)⟩

/-- RESTART: the head request is RESTART; it is taken whatever the reply queue holds (R182). -/
def execRestart (s : State) : Step :=
  match s.console.inbound with
  | [] => .next s
  | q :: rest =>
    if formRequest q = some .restart then .next (replyTo q (answerRestart (dequeued s rest))) else .next s

/-! ### The Timeline Unit -/

/-- SET ORIGIN on a converted label (R13). That BUSY is tested before LIST_NOT_EMPTY is the model's reading: R13 names them in
this order and does not rank them (log entry 50). -/
def setOriginTo (s : State) (position : Nat) (advanced : Bool) : Answer :=
  if !runIdle s then refuseWith s .busy
  else if !s.store.events.isEmpty then refuseWith s .listNotEmpty
  else
    ⟨s.updateTimeline (fun t => { t with origin := position }), okOr advanced, labelBytes (timelineLabel s position)⟩

/-- SET ORIGIN (R13). -/
def answerSetOrigin (l : Label) (s : State) : Answer :=
  match convertRecord s l with
  | .ok (p, adv) => setOriginTo s p adv
  | .error e => refuseWith s e

/-- SET_ORIGIN: the head request is SET ORIGIN. -/
def execSetOrigin (s : State) : Step :=
  .next (serveHead s (fun r => match r with | .setOrigin l => some (answerSetOrigin l) | _ => none))

end Sys2Proof.Machine
end

