-- ==== Sys2Proof/Machine/ListRequests.lean ====
section
/-! DEFINITION. The Event Store's requests: the eight change requests (R46 to R68) and the lookups (R38 to R44). -/

namespace Sys2Proof.Machine

/-! ### What the change requests share -/

/-- An edit mode that is absent or PLACE (R60, R66). -/
def EditMode.plain : EditMode → Bool
  | .noMode => true
  | .place => true
  | .ripple => false
  | .leaveGap => false

/-- Steps 3 and 4 of R47: the target is live and not RUNNING. -/
def withTarget (s : State) (handle : Nat) (f : Event → Answer) : Answer :=
  match findEvent s handle with
  | none => refuseWith s .noEvent
  | some e =>
    match e.state with
    | .running => refuseWith s .inRun
    | .opened => f e
    | .performed => f e

/-- The ripple part of a reply, for a request given in RIPPLE mode (R48). -/
def ripplePart (ripple : Option RippleRequest) (a : Accepted) : List Byte :=
  if ripple.isSome then rippleData a.shift a.moved else []

/-- The reply to an accepted change but a DELETE (R48). It shows the event as it stands once the change is finished, so that
after a renumbering the ADD reply carries the new event's ordinal. DEDUCED: R36 also says that the reply carries n − 1, which its
own renumbering and the example of section 2.9 contradict when an event follows the new one (log entry 47). -/
def changeAnswer (a : Accepted) (ripple : Option RippleRequest) (advanced : Bool) (nudges : List Nat) : Answer :=
  ⟨a.state, okOr (advanced || nudges.any (fun k => 0 < k) || a.rounded),
    (match findEvent a.state a.handle with
      | some e => changedData a.state e nudges
      | none => []) ++ ripplePart ripple a⟩

/-- Steps 7 to 11 of R47 on a resulting record, and the write (R46). -/
def changeTo (s : State) (target : Option Event) (cuesKnown : Bool) (r : Record) (ripple : Option RippleRequest)
    (advanced : Bool) : Answer :=
  match applyChange s cuesKnown { target := target, result := some (nudged s r), ripple := ripple } with
  | .ok a => changeAnswer a ripple advanced (nudgesOf s r)
  | .error e => refuse s e

/-- A change of one event that moves no other. -/
def changeEvent (s : State) (e : Event) (r : Record) (advanced : Bool) : Answer := changeTo s (some e) true r none advanced

/-- A source's source in moved by a count of fields, mod the source's day (R60, R63). -/
def moveSource (s : State) (delta : Int) (x : Source) : Source :=
  { x with sourceIn := wrap (dayOf s x.machine) ((x.sourceIn : Int) + delta) }

/-! ### ADD (R55 to R59) -/

/-- The kind a number names. -/
def kindOf? : Nat → Option Kind
  | 0 => some .cut
  | 1 => some .mix
  | 2 => some .wipe
  | 3 => some .box
  | _ => none

/-- A track set byte; bits 5 to 7 must be zero (R196). -/
def tracksOf? (n : Nat) : Option TrackSet :=
  if n < 32 then some ⟨n.testBit 0, n.testBit 1, n.testBit 2, n.testBit 3, n.testBit 4⟩ else none

/-- A flag byte. -/
def flagOf? : Nat → Option Bool
  | 0 => some false
  | 1 => some true
  | _ => none

/-- A cue entry read from its bytes, its line and anchor known (R27 group 1, R197). -/
def cueOf? (c : CueBytes) : Option CueEntry :=
  match Unit8.ofNat? c.line with
  | some g =>
    if c.anchor < 4 then
      some
        { line := g, anchor := if c.anchor.testBit 0 then .recordOut else .recordIn, offset := c.offset, width := c.width,
          recordOnly := c.anchor.testBit 1 }
    else none
  | none => none

/-- A present value, unless it is the one that stands for absence (R24). -/
def presentUnless {α : Type} [DecidableEq α] (present : Bool) (absent x : α) : Option α :=
  if present && decide (x ≠ absent) then some x else none

/-- A value present by its presence bit. -/
def presentIf {α : Type} (present : Bool) (x : α) : Option α := if present then some x else none

/-- The positions of a new record: its record in, its duration, and its source ins. -/
structure AddPositions where
  recordIn : Nat
  duration : Nat
  in1 : Nat
  in2 : Nat
  /-- A dropped label was advanced (R7). -/
  advanced : Bool
deriving DecidableEq, Repr

/-- Step 1 of R47 for an ADD without marks: the record in, then source 1's label, then source 2's. -/
def labelPositions (s : State) (b : RecordBlock) : Except Refused AddPositions :=
  match convertRecord s b.recordIn with
  | .error e => .error { result := e }
  | .ok (r, a0) =>
    match convertFor s b.machine1 b.in1 with
    | .error e => .error { result := e }
    | .ok (x, a1) =>
      match b.machine2 with
      | none => .ok ⟨r, b.duration, x, 0, a0 || a1⟩
      | some m =>
        match convertFor s m b.in2 with
        | .error e => .error { result := e }
        | .ok (y, a2) => .ok ⟨r, b.duration, x, y, a0 || a1 || a2⟩

/-- The mark-in of a source machine, for an ADD with marks (R56 step 3). -/
def sourceMark (s : State) (m : MachineId) : Except Refused Nat :=
  if !(s.machine m).configured then .error { result := .notConfigured }
  else
    match (s.machine m).markIn with
    | some p => .ok p
    | none => .error { result := .noPosition, machine := some m }

/-- Step 5 of R47: the positions of an ADD with marks (R56). -/
def markPositions (s : State) (b : RecordBlock) : Except Refused AddPositions :=
  match s.recorder with
  | none => .error { result := .noRecorder }
  | some r =>
    match (s.machine r).markIn, (s.machine r).markOut with
    | some a, some z =>
      match sourceMark s b.machine1 with
      | .error e => .error e
      | .ok x =>
        match b.machine2 with
        | none => .ok ⟨a, wrap (dayRec s) ((z : Int) - (a : Int)), x, 0, false⟩
        | some m =>
          match sourceMark s m with
          | .error e => .error e
          | .ok y => .ok ⟨a, wrap (dayRec s) ((z : Int) - (a : Int)), x, y, false⟩
    | some _, none => .error { result := .noPosition, machine := some r }
    | none, _ => .error { result := .noPosition, machine := some r }

/-- The new record of an ADD (R55). -/
def newRecord (b : RecordBlock) (kind : Kind) (tracks : TrackSet) (colour : Bool) (p : AddPositions) : Record :=
  { kind, tracks, recordIn := p.recordIn, duration := p.duration, source1 := ⟨b.machine1, p.in1⟩,
    source2 := b.machine2.map (fun m => ⟨m, p.in2⟩), transition := presentIf b.hasTransition b.transition,
    wipe := presentIf b.hasWipe ⟨b.sx, b.sy, b.wipeFlags.testBit 0⟩,
    box := presentIf b.hasBox ⟨b.kx0, b.kx1, b.ky0, b.ky1, b.mask⟩, split := presentUnless b.hasSplit 0 b.split,
    rate := presentUnless b.hasRate 256 b.rate, colour, cues := b.cues.filterMap cueOf? }

/-- The ripple an ADD asks for: room for the new event (R53, R58). -/
def addRipple (s : State) (mode : EditMode) (r : Record) : Option RippleRequest :=
  match mode with
  | .ripple => some ⟨startOffset s r, (r.extent : Int)⟩
  | .place => none
  | .noMode => none
  | .leaveGap => none

/-- The edit modes ADD allows (R47 step 2). -/
def addMode : EditMode → Bool
  | .place => true
  | .ripple => true
  | .noMode => false
  | .leaveGap => false

/-- ADD from step 6 on. -/
def addRecord (s : State) (mode : EditMode) (b : RecordBlock) (r : Record) (advanced : Bool) : Answer :=
  changeTo s none (b.cues.all (fun c => (cueOf? c).isSome)) r (addRipple s mode r) advanced

/-- ADD from step 2 on, `positions` being what step 1 or step 5 gives. -/
def addFrom (s : State) (mode : EditMode) (b : RecordBlock) (positions : Except Refused AddPositions) : Answer :=
  match addMode mode, kindOf? b.kind, tracksOf? b.tracks, flagOf? b.colour with
  | true, some k, some t, some c =>
    match positions with
    | .ok p => addRecord s mode b (newRecord b k t c p) p.advanced
    | .error e => refuse s e
  | _, _, _, _ => refuseWith s .badRequest

/-- ADD (R55): without marks its labels are converted first; with marks the marks are read at step 5. -/
def answerAdd (mode : EditMode) (b : RecordBlock) (s : State) : Answer :=
  if b.hasPositions then
    match labelPositions s b with
    | .error e => refuse s e
    | .ok p => addFrom s mode b (.ok p)
  else addFrom s mode b (markPositions s b)

/-- ADD: the head request is ADD. -/
def execAdd (s : State) : Step :=
  .next (serveHead s (fun r => match r with | .add mode b => some (answerAdd mode b) | _ => none))

/-! ### Changing one event (R60 to R66) -/

/-- The record of a TRIM IN (R60). -/
def trimmedIn (s : State) (r : Record) (delta : Int) : Record :=
  { r with
    recordIn := wrap (dayRec s) ((r.recordIn : Int) + delta), duration := ((r.duration : Int) - delta).toNat,
    source1 := moveSource s delta r.source1, source2 := r.source2.map (moveSource s delta) }

/-- TRIM IN (R60). -/
def answerTrimIn (mode : EditMode) (handle : Nat) (delta : Int) (s : State) : Answer :=
  if mode.plain then withTarget s handle (fun e => changeEvent s e (trimmedIn s e.record delta) false)
  else refuseWith s .badRequest

/-- TRIM_IN: the head request is TRIM IN. -/
def execTrimIn (s : State) : Step :=
  .next (serveHead s (fun r => match r with | .trimIn mode h d => some (answerTrimIn mode h d) | _ => none))

/-- The record of a TRIM OUT (R61). -/
def trimmedOut (r : Record) (delta : Int) : Record := { r with duration := ((r.duration : Int) + delta).toNat }

/-- The ripple a TRIM OUT asks for; none for a mode it does not allow (R47 step 2, R61, R62). -/
def trimOutRipple (s : State) (mode : EditMode) (e : Event) (delta : Int) : Option RippleRequest :=
  match mode with
  | .ripple => some ⟨endOffset s e.record, delta⟩
  | .noMode => none
  | .place => none
  | .leaveGap => none

/-- TRIM OUT (R61, R62). -/
def answerTrimOut (mode : EditMode) (handle : Nat) (delta : Int) (s : State) : Answer :=
  if mode = .leaveGap then refuseWith s .badRequest
  else
    withTarget s handle (fun e =>
      changeTo s (some e) true (trimmedOut e.record delta) (trimOutRipple s mode e delta) false)

/-- TRIM_OUT: the head request is TRIM OUT. -/
def execTrimOut (s : State) : Step :=
  .next (serveHead s (fun r => match r with | .trimOut mode h d => some (answerTrimOut mode h d) | _ => none))

/-- The record of a SLIP of source 1 or source 2; none when there is no such source (R47 step 6, R63). -/
def slipped (s : State) (r : Record) (source : Nat) (delta : Int) : Option Record :=
  if source = 1 then some { r with source1 := moveSource s delta r.source1 }
  else r.source2.map (fun x => { r with source2 := some (moveSource s delta x) })

/-- SLIP (R63). -/
def answerSlip (mode : EditMode) (handle source : Nat) (delta : Int) (s : State) : Answer :=
  if mode = .noMode ∧ (source = 1 ∨ source = 2) then
    withTarget s handle (fun e =>
      match slipped s e.record source delta with
      | some r => changeEvent s e r false
      | none => refuseWith s .badRequest)
  else refuseWith s .badRequest

/-- SLIP: the head request is SLIP. -/
def execSlip (s : State) : Step :=
  .next (serveHead s (fun r => match r with | .slip mode h x d => some (answerSlip mode h x d) | _ => none))

/-- TRIM TRANSITION (R64). -/
def answerTrimTransition (handle : Nat) (delta : Int) (s : State) : Answer :=
  withTarget s handle (fun e =>
    match e.record.transition with
    | some d => changeEvent s e { e.record with transition := some ((d : Int) + delta).toNat } false
    | none => refuseWith s .badRequest)

/-- TRIM_TRANSITION: the head request is TRIM TRANSITION. -/
def execTrimTransition (s : State) : Step :=
  .next (serveHead s (fun r => match r with | .trimTransition h d => some (answerTrimTransition h d) | _ => none))

/-- SET SPLIT (R65); a split of 0 removes the split (R24). -/
def answerSetSplit (handle : Nat) (split : Int) (s : State) : Answer :=
  withTarget s handle (fun e => changeEvent s e { e.record with split := presentUnless true 0 split } false)

/-- SET_SPLIT: the head request is SET SPLIT. -/
def execSetSplit (s : State) : Step :=
  .next (serveHead s (fun r => match r with | .setSplit h x => some (answerSetSplit h x) | _ => none))

/-- MOVE (R66). -/
def answerMove (mode : EditMode) (handle : Nat) (l : Label) (s : State) : Answer :=
  match convertRecord s l with
  | .error e => refuseWith s e
  | .ok (p, adv) =>
    if mode.plain then withTarget s handle (fun e => changeEvent s e { e.record with recordIn := p } adv)
    else refuseWith s .badRequest

/-- MOVE: the head request is MOVE. -/
def execMove (s : State) : Step :=
  .next (serveHead s (fun r => match r with | .move mode h l => some (answerMove mode h l) | _ => none))

/-! ### DELETE (R67, R68) -/

/-- The ripple a DELETE asks for: the place of the target closed (R53). -/
def deleteRipple (s : State) (mode : EditMode) (e : Event) : Option RippleRequest :=
  match mode with
  | .ripple => some ⟨endOffset s e.record, -(e.record.extent : Int)⟩
  | .noMode => none
  | .leaveGap => none
  | .place => none

/-- The data of an accepted DELETE: the handle and the offsets the removed event had (R48). -/
def deleteData (s : State) (e : Event) : List Byte :=
  u16 e.handle ++ u32 (startOffset s e.record) ++ u32 (endOffset s e.record)

/-- A DELETE of a live event that is not RUNNING (R67, R68). -/
def deleteEvent (s : State) (mode : EditMode) (e : Event) : Answer :=
  match applyChange s true { target := some e, result := none, ripple := deleteRipple s mode e } with
  | .ok a => ⟨a.state, okOr a.rounded, deleteData s e ++ ripplePart (deleteRipple s mode e) a⟩
  | .error x => refuse s x

/-- DELETE (R67, R68). -/
def answerDelete (mode : EditMode) (handle : Nat) (s : State) : Answer :=
  if mode = .place then refuseWith s .badRequest else withTarget s handle (deleteEvent s mode)

/-- DELETE: the head request is DELETE. -/
def execDelete (s : State) : Step :=
  .next (serveHead s (fun r => match r with | .delete mode h => some (answerDelete mode h) | _ => none))

/-! ### Lookups (R38 to R42) -/

/-- READ EVENT (R38). -/
def answerReadEvent (handle : Nat) (s : State) : Answer :=
  match findEvent s handle with
  | some e => ⟨s, .ok, eventData s e (ordinalOf s handle)⟩
  | none => refuseWith s .noEvent

/-- READ_EVENT: the head request is READ EVENT. -/
def execReadEvent (s : State) : Step :=
  .next (serveHead s (fun r => match r with | .readEvent h => some (answerReadEvent h) | _ => none))

/-- READ ORDINAL (R39). -/
def answerReadOrdinal (n : Nat) (s : State) : Answer :=
  match s.store.events[n]? with
  | some e => ⟨s, .ok, eventData s e (some n)⟩
  | none => refuseWith s .noEvent

/-- READ_ORDINAL: the head request is READ ORDINAL. -/
def execReadOrdinal (s : State) : Step :=
  .next (serveHead s (fun r => match r with | .readOrdinal n => some (answerReadOrdinal n) | _ => none))

/-- The answer of NEXT and PREVIOUS: the handle, start offset and ordinal of the event at a place, or NONE (R40). -/
def placeData (s : State) (place : Option Nat) : List Byte :=
  match place.bind (fun n => (s.store.events[n]?).map (fun e => (n, e))) with
  | some (n, e) => u16 e.handle ++ u32 (startOffset s e.record) ++ u16 n
  | none => countOrNone none ++ u32 Config.absentFieldCount ++ countOrNone none

/-- NEXT (R40). -/
def answerNext (handle : Nat) (s : State) : Answer :=
  if handle = 65535 then ⟨s, .ok, placeData s (some 0)⟩
  else
    match ordinalOf s handle with
    | some n => ⟨s, .ok, placeData s (some (n + 1))⟩
    | none => refuseWith s .noEvent

/-- NEXT: the head request is NEXT. -/
def execNext (s : State) : Step :=
  .next (serveHead s (fun r => match r with | .next h => some (answerNext h) | _ => none))

/-- The place before a place, if there is one. -/
def before : Nat → Option Nat
  | 0 => none
  | n + 1 => some n

/-- PREVIOUS (R40). -/
def answerPrevious (handle : Nat) (s : State) : Answer :=
  if handle = 65535 then ⟨s, .ok, placeData s (before s.store.events.length)⟩
  else
    match ordinalOf s handle with
    | some n => ⟨s, .ok, placeData s (before n)⟩
    | none => refuseWith s .noEvent

/-- PREVIOUS: the head request is PREVIOUS. -/
def execPrevious (s : State) : Step :=
  .next (serveHead s (fun r => match r with | .previous h => some (answerPrevious h) | _ => none))

/-- COUNT (R39): the live events and the free slots. -/
def answerCount (s : State) : Answer :=
  ⟨s, .ok, u16 s.store.events.length ++ u16 (Config.slotCount - s.store.events.length)⟩

/-- COUNT: the head request is COUNT. -/
def execCount (s : State) : Step :=
  .next (serveHead s (fun r => match r with | .count => some answerCount | _ => none))

/-- The track a number names (R196). -/
def trackOf? : Nat → Option Track
  | 0 => some .v
  | 1 => some .a1
  | 2 => some .a2
  | 3 => some .a3
  | 4 => some .a4
  | _ => none

/-- A lookup of a record position on a track: the label is converted, then the track must be known (R41, R42). -/
def lookupAt (s : State) (l : Label) (track : Nat) (data : Track → Nat → List Byte) : Answer :=
  match convertRecord s l with
  | .error e => refuseWith s e
  | .ok (p, adv) =>
    match trackOf? track with
    | some t => ⟨s, okOr adv, data t p ++ labelUsed (timelineLabel s p) adv⟩
    | none => refuseWith s .badRequest

/-- The FIND AT data (R41). -/
def findAtData (s : State) (t : Track) (p : Nat) : List Byte :=
  match coveringEvent s t p with
  | some e => u16 e.handle ++ countOrNone (ordinalOf s e.handle) ++ u8 e.state.code
  | none => countOrNone none ++ countOrNone none ++ u8 255

/-- FIND AT (R41). -/
def answerFindAt (l : Label) (track : Nat) (s : State) : Answer := lookupAt s l track (findAtData s)

/-- FIND_AT: the head request is FIND AT. -/
def execFindAt (s : State) : Step :=
  .next (serveHead s (fun r => match r with | .findAt l t => some (answerFindAt l t) | _ => none))

/-- A machine with a position in its domain, as a machine element and a label. -/
def matchSide (s : State) (m : MachineId) (position : Nat) : List Byte :=
  u8 m.toNat ++ labelBytes (machineLabel s m position)

/-- No machine and no position. -/
def noSide : List Byte := machineOrNone none ++ labelOrAbsent none

/-- The to-source position at j fields from the record in (R42). -/
def toPosition (s : State) (r : Record) (j : Int) : Nat :=
  wrap (dayOf s r.source1.machine) ((r.source1.sourceIn : Int) + rateFields j (r.rate.getD 256))

/-- The from-source side: when the event has a source 2 and j is less than D (R42). -/
def fromSide (s : State) (r : Record) (j : Int) : List Byte :=
  match r.source2 with
  | some x =>
    if j < ((r.transition.getD 0 : Nat) : Int) then
      matchSide s x.machine (wrap (dayOf s x.machine) ((x.sourceIn : Int) + j))
    else noSide
  | none => noSide

/-- The fields from an event's record in to a record position. -/
def fieldsIn (s : State) (r : Record) (p : Nat) : Int := foldDiff (dayRec s) p r.recordIn

/-- The MATCH FRAME data (R42). -/
def matchFrameData (s : State) (t : Track) (p : Nat) : List Byte :=
  match coveringEvent s t p with
  | some e =>
    u16 e.handle ++ i32 (fieldsIn s e.record p)
      ++ matchSide s e.record.source1.machine (toPosition s e.record (fieldsIn s e.record p))
      ++ fromSide s e.record (fieldsIn s e.record p)
  | none => countOrNone none ++ u32 Config.absentFieldCount ++ noSide ++ noSide

/-- MATCH FRAME (R42). -/
def answerMatchFrame (l : Label) (track : Nat) (s : State) : Answer := lookupAt s l track (matchFrameData s)

/-- MATCH_FRAME: the head request is MATCH FRAME. -/
def execMatchFrame (s : State) : Step :=
  .next (serveHead s (fun r => match r with | .matchFrame l t => some (answerMatchFrame l t) | _ => none))

/-- CLEAR LIST (R44). -/
def answerClearList (s : State) : Answer :=
  if runIdle s then ⟨clearStore s, .ok, u16 s.store.events.length⟩ else refuseWith s .busy

/-- CLEAR_LIST: the head request is CLEAR LIST. -/
def execClearList (s : State) : Step :=
  .next (serveHead s (fun r => match r with | .clearList => some answerClearList | _ => none))

end Sys2Proof.Machine
end

