-- ==== Sys2Proof/Machine/MachineRequests.lean ====
section
/-! DEFINITION. The Machine Controller's requests: configuration (R95 to R99), console transport and locate (R100 to R102),
follows (R105 to R107) and marks (R115). -/

namespace Sys2Proof.Machine

/-! ### CONFIGURE MACHINE (R95, R96) -/

/-- The label mode a number names. -/
def labelModeOf? : Nat → Option LabelMode
  | 0 => some .df
  | 1 => some .ndf
  | 2 => some .m25
  | _ => none

/-- A parameter that is carried passes a test; one that is omitted does. -/
def passes {α : Type} (x : Option α) (test : α → Bool) : Bool :=
  match x with
  | some v => test v
  | none => true

/-- Test 1 of R95: a label mode that is carried is one of the list (R196). -/
def modeKnown (p : ConfigureParams) : Bool := passes p.mode (fun n => (labelModeOf? n).isSome)

/-- The standard in force allows the label mode. -/
def modeAllowed (std : Standard) (n : Nat) : Bool :=
  match labelModeOf? n with
  | some x => std.allows x
  | none => false

/-- Test 2 of R95: every parameter lies in its range, and the standard allows the label mode. -/
def paramsInRange (std : Standard) (p : ConfigureParams) : Bool :=
  passes p.mode (modeAllowed std) && passes p.gain (within 1 64) && passes p.lockWindow (within 0 15)
    && passes p.lockCount (within 1 15) && passes p.unlockCount (within 1 15) && passes p.shuttleLimit (within 256 12288)
    && passes p.lag (withinInt (-7) 7) && passes p.editDelay (within 0 15)
    && passes p.faultLimit (fun n => n == 1 || n == 2 || n == 4 || n == 8) && passes p.ctlEnable (within 0 1)

/-- The parameters after a request: those carried, over those it starts from (R95). -/
def mergeParams (base : MachineParams) (p : ConfigureParams) : MachineParams :=
  { mode := (p.mode.bind labelModeOf?).getD base.mode, gain := p.gain.getD base.gain,
    lockWindow := p.lockWindow.getD base.lockWindow, lockCount := p.lockCount.getD base.lockCount,
    unlockCount := p.unlockCount.getD base.unlockCount, shuttleLimit := p.shuttleLimit.getD base.shuttleLimit,
    lag := p.lag.getD base.lag, editDelay := p.editDelay.getD base.editDelay,
    faultLimit := p.faultLimit.getD base.faultLimit,
    ctlEnable := (p.ctlEnable.map (fun n => n == 1)).getD base.ctlEnable }

/-- The action of CONFIGURE MACHINE (R196). -/
def configureOf? : Nat → Option Bool
  | 0 => some false
  | 1 => some true
  | _ => none

/-- The request would unconfigure a configured machine. -/
def wouldUnconfigure (s : State) (m : MachineId) (configure : Bool) : Bool := (s.machine m).configured && !configure

/-- The request would change the label mode of a configured machine. -/
def wouldChangeMode (s : State) (m : MachineId) (configure : Bool) (p : ConfigureParams) : Bool :=
  (s.machine m).configured && configure && (mergeParams (s.machine m).params p).mode != modeOf s m

/-- Test 3 of R95. -/
def configureInUse (s : State) (m : MachineId) (configure : Bool) (p : ConfigureParams) : Bool :=
  ((wouldUnconfigure s m configure || wouldChangeMode s m configure p)
      && (anyReferences s m || (s.machine m).claimed))
    || (wouldUnconfigure s m configure && s.recorder == some m)

/-- Test 4 of R95. -/
def configureBusy (s : State) (m : MachineId) (configure : Bool) (p : ConfigureParams) : Bool :=
  wouldChangeMode s m configure p && s.recorder == some m && !runIdle s

/-- An unconfigured machine configured (R90, R96). -/
def configureNew (s : State) (m : MachineId) (p : ConfigureParams) : State :=
  (changeLink
    ((s.setPort m (s.port m).configured).setMachine m
      (configuredRec (mergeParams (defaultParams s.timeline.standard) p))) m .online).1

/-- The port's part of new parameters: CTL turned off clears the count (R90). -/
def Port.withCtl (p : Port) (enabled : Bool) : Port := if enabled then p else p.ctlCleared

/-- New parameters for a configured machine, the label mode apart (R96). -/
def reconfigure (s : State) (m : MachineId) (p : ConfigureParams) : State :=
  (s.setPort m ((s.port m).withCtl (mergeParams (s.machine m).params p).ctlEnable)).setMachine m
    { s.machine m with params := { mergeParams (s.machine m).params p with mode := modeOf s m } }

/-- The timeline origin set to 0 (R3). -/
def zeroOrigin (s : State) : State := s.updateTimeline (fun t => { t with origin := 0 })

/-- The label mode of a configured machine changed; the recorder's change sets the origin to 0 (R3, R96). -/
def changeModeTo (s : State) (m : MachineId) (mode : LabelMode) : State :=
  if s.recorder = some m then zeroOrigin (changeLabelMode s m mode) else changeLabelMode s m mode

/-- A machine unconfigured (R90, R96): the notices of its locate, then those of its follows, then that of the port's change to
ABSENT; R96 fixes no order (log entry 49). -/
def unconfigure (s : State) (m : MachineId) : State :=
  let t := configurationEndsLocate s (changeMachine s m MachineRec.locateEnded) m
  let t := cancelFollowsOf t m
  raiseMachineState
    ((t.setPort m (t.port m).unconfigured).setMachine m (unconfiguredRec t.timeline.standard)) m

/-- An accepted CONFIGURE MACHINE (R96). -/
def configured (s : State) (m : MachineId) (configure : Bool) (p : ConfigureParams) : State :=
  if configure then
    if (s.machine m).configured then
      if wouldChangeMode s m configure p then
        changeModeTo (reconfigure s m p) m (mergeParams (s.machine m).params p).mode
      else reconfigure s m p
    else configureNew s m p
  else if (s.machine m).configured then unconfigure s m
  else s

/-- CONFIGURE MACHINE (R95). -/
def answerConfigure (m : MachineId) (action : Nat) (p : ConfigureParams) (s : State) : Answer :=
  match configureOf? action with
  | none => refuseWith s .badRequest
  | some configure =>
    if !modeKnown p then refuseWith s .badRequest
    else if !paramsInRange s.timeline.standard p then refuseWith s .range
    else if configureInUse s m configure p then refuseWith s .inUse
    else if configureBusy s m configure p then refuseWith s .busy
    else ⟨configured s m configure p, .ok, machineData (configured s m configure p) m⟩

/-- CONFIGURE_MACHINE: the head request is CONFIGURE MACHINE. -/
def execConfigureMachine (s : State) : Step :=
  .next (serveHead s (fun r => match r with | .configureMachine m a p => some (answerConfigure m a p) | _ => none))

/-! ### SET RECORDER, SET STANDARD, READ MACHINE (R97 to R99) -/

/-- The machine named is configured; NONE names no machine. -/
def recorderConfigured (s : State) : Option MachineId → Bool
  | some m => (s.machine m).configured
  | none => true

/-- SET RECORDER (R97). -/
def answerSetRecorder (m : Option MachineId) (s : State) : Answer :=
  if !recorderConfigured s m then refuseWith s .notConfigured
  else if !runIdle s then refuseWith s .busy
  else if !s.store.events.isEmpty then refuseWith s .listNotEmpty
  else
    let t := zeroOrigin { s with recorder := m }
    ⟨t, .ok, machineOrNone m ++ u8 (timelineMode t).code⟩

/-- SET_RECORDER: the head request is SET RECORDER. -/
def execSetRecorder (s : State) : Step :=
  .next (serveHead s (fun r => match r with | .setRecorder m => some (answerSetRecorder m) | _ => none))

/-- The standard a number names. -/
def standardOf? : Nat → Option Standard
  | 0 => some .s525
  | 1 => some .s625
  | _ => none

/-- The Timeline Unit's part of SET STANDARD at time t, but for the notice (R2). -/
def retime (s : State) (std : Standard) (t : Nat) : State :=
  (advanceTo s t).updateTimeline (fun x =>
    { x with
      standard := std, origin := 0, refState := .absent, goodCount := 0, refFieldStart := none, refBroken := false,
      clockBase := t,
      tickParity := match x.field with | some f => f.parity | none => x.tickParity })

/-- R2: a part that was on reference raises REFERENCE LOST. -/
def setStandardTimeline (s : State) (std : Standard) (t : Nat) : State :=
  if s.timeline.refState = .onReference then raiseNotice (retime s std t) (.reference .lost) else retime s std t

/-- A machine record brought to the standard's default label mode (R98): a configured machine leaves its old domain; the
record of an unconfigured one takes the mode, so that none holds a mode that the standard does not allow (R1). -/
def enterDefaultMode (s : State) (std : Standard) (m : MachineId) : State :=
  if (s.machine m).configured then enterMode s m std.defaultMode
  else updateMachine s m (fun x => x.withMode std.defaultMode)

/-- The Machine Controller's part of SET STANDARD (R98): every machine takes the default label mode, and then the locates
and follows of the configured machines end, so that each MACHINE_STATE shows a record already in the new domain (R94). That they end in the order M0 to M7 is the model's
choice: R98 names no order (log entry 49). -/
def setStandardMachines (s : State) (std : Standard) : State :=
  Unit8.all.foldl (fun x m => if (x.machine m).configured then endMotionOfMode s x m else x)
    (Unit8.all.foldl (fun x m => enterDefaultMode x std m) s)

/-- SET STANDARD taken at time t (R98). -/
def answerSetStandard (value t : Nat) (s : State) : Answer :=
  match standardOf? value with
  | none => refuseWith s .badRequest
  | some std =>
    if !runIdle s then refuseWith s .busy
    else if !s.store.events.isEmpty then refuseWith s .listNotEmpty
    else ⟨setStandardMachines (setStandardTimeline s std t) std, .ok, []⟩

/-- SET_STANDARD: the head request is SET STANDARD, taken `elapsed` after the last timed event. -/
def execSetStandard (elapsed : Nat) (s : State) : Step :=
  .next (serveHead s (fun r =>
    match r with | .setStandard v => some (answerSetStandard v (s.now + elapsed)) | _ => none))

/-- READ MACHINE (R99). -/
def answerReadMachine (m : MachineId) (s : State) : Answer := ⟨s, .ok, machineData s m⟩

/-- READ_MACHINE: the head request is READ MACHINE. -/
def execReadMachine (s : State) : Step :=
  .next (serveHead s (fun r => match r with | .readMachine m => some (answerReadMachine m) | _ => none))

/-! ### Console transport (R100, R101) -/

/-- Steps 2 to 6 of R100: the refusal of a console transport request; `isStop` for STOP. -/
def transportRefusal (s : State) (m : MachineId) (isStop : Bool) : Option Result :=
  if !(s.machine m).configured then some .notConfigured
  else if (s.machine m).claimed then some .claimed
  else if (s.machine m).following then some .following
  else
    match linkRefusal (s.link m) with
    | some e => some e
    | none => if s.stopAsserted && !isStop then some .stopped else none

/-- The record after an accepted STOP, PLAY or SHUTTLE (R101). -/
def MachineRec.transported (x : MachineRec) (speed : Int) : MachineRec :=
  { x.countsCleared with lastSpeed := some speed, control := .free, locate := none }

/-- STOP, PLAY and SHUTTLE: the tests of R100, then the request placed and the record changed (R101). -/
def transport (s : State) (m : MachineId) (r : DeckRequest) (speed : Int) (isStop : Bool) (result : Result)
    (data : List Byte) : Answer :=
  match transportRefusal s m isStop with
  | some e => refuseWith s e
  | none =>
    match placeMotion s m r with
    | .error e => refuseWith s e
    | .ok t => ⟨changeMachine t m (fun x => x.transported speed), result, data⟩

/-- STOP (R101). -/
def answerStop (m : MachineId) (s : State) : Answer := transport s m .stop 0 true .ok []

/-- STOP: the head request is STOP. -/
def execStop (s : State) : Step :=
  .next (serveHead s (fun r => match r with | .stop m => some (answerStop m) | _ => none))

/-- PLAY (R101). -/
def answerPlay (m : MachineId) (s : State) : Answer := transport s m .play 256 false .ok []

/-- PLAY: the head request is PLAY. -/
def execPlay (s : State) : Step :=
  .next (serveHead s (fun r => match r with | .play m => some (answerPlay m) | _ => none))

/-- A speed held within the shuttle limit (R101). -/
def clampSpeed (limit : Nat) (v : Int) : Int := max (-(limit : Int)) (min (limit : Int) v)

/-- SHUTTLE (R101): ADJUSTED with the speed placed when the speed was clamped. -/
def answerShuttle (m : MachineId) (v : Int) (s : State) : Answer :=
  let speed := clampSpeed (s.machine m).params.shuttleLimit v
  if speed = v then transport s m (.shuttle speed) speed false .ok []
  else transport s m (.shuttle speed) speed false .adjusted (i16 speed)

/-- SHUTTLE: the head request is SHUTTLE. -/
def execShuttle (s : State) : Step :=
  .next (serveHead s (fun r => match r with | .shuttle m v => some (answerShuttle m v) | _ => none))

/-! ### LOCATE (R100, R102) -/

/-- LOCATE on a converted target (R102). -/
def locateTo (s : State) (m : MachineId) (target : Nat) (advanced : Bool) : Answer :=
  match transportRefusal s m false with
  | some e => refuseWith s e
  | none =>
    match startLocate s m target .console with
    | .error e => refuseWith s e
    | .ok t => ⟨t, acceptedOr advanced, labelUsed (machineLabel s m target) advanced⟩

/-- LOCATE (R100, R102). -/
def answerLocate (m : MachineId) (l : Label) (s : State) : Answer :=
  match convertFor s m l with
  | .ok (p, adv) => locateTo s m p adv
  | .error e => refuseWith s e

/-- LOCATE: the head request is LOCATE. -/
def execLocate (s : State) : Step :=
  .next (serveHead s (fun r => match r with | .locate m l => some (answerLocate m l) | _ => none))

/-! ### Follows (R105 to R107) -/

/-- The offset lies in the range of a folded difference of the day (R105 step 4). -/
def offsetInRange (day : Nat) (off : Int) : Bool := -(day : Int) < 2 * off && 2 * off ≤ (day : Int)

/-- The tests of FOLLOW after the form stage (R105). -/
def followRefusal (s : State) (f l : MachineId) (off : Int) : Option Result :=
  if !(s.machine f).configured || !(s.machine l).configured then some .notConfigured
  else if f = l then some .sameMachine
  else if !offsetInRange (dayOf s f) off then some .range
  else if (s.machine f).claimed then some .claimed
  else if chainReaches s f 8 l then some .cycle
  else
    match linkRefusal (s.link f) with
    | some e => some e
    | none => if s.stopAsserted then some .stopped else none

/-- The record of a new follower (R105). -/
def MachineRec.follows (x : MachineRec) (l : MachineId) (off : Int) : MachineRec :=
  { x.countsCleared with leader := .machine l off, control := .chasing, locate := none }

/-- FOLLOW (R105). -/
def answerFollow (f l : MachineId) (off : Int) (s : State) : Answer :=
  match followRefusal s f l off with
  | some e => refuseWith s e
  | none => ⟨changeMachine s f (fun x => x.follows l off), .ok, []⟩

/-- FOLLOW: the head request is FOLLOW. -/
def execFollow (s : State) : Step :=
  .next (serveHead s (fun r => match r with | .follow f l off => some (answerFollow f l off) | _ => none))

/-- UNFOLLOW (R107). Its refusals come in the order in which R107 names them (log entry 50). -/
def answerUnfollow (m : MachineId) (s : State) : Answer :=
  if !(s.machine m).configured then refuseWith s .notConfigured
  else if (s.machine m).claimed then refuseWith s .claimed
  else if (s.machine m).following then ⟨cancelFollow s m, .ok, []⟩
  else ⟨s, .ok, []⟩

/-- UNFOLLOW: the head request is UNFOLLOW. -/
def execUnfollow (s : State) : Step :=
  .next (serveHead s (fun r => match r with | .unfollow m => some (answerUnfollow m) | _ => none))

/-! ### Marks (R115) -/

/-- The estimate that a mark may be taken from: not STALE (R115). -/
def markable (x : MachineRec) : Option Nat :=
  match x.quality with
  | .tc => x.position
  | .ctl => x.position
  | .stale => none

/-- MARK IN and MARK OUT: the estimate stored by `store` as a mark (R115). An unconfigured machine, whose quality is STALE, is
refused NOT_CONFIGURED: R115 names that result first and does not rank the two (log entry 50). -/
def mark (s : State) (m : MachineId) (store : MachineRec → Nat → MachineRec) : Answer :=
  if !(s.machine m).configured then refuseWith s .notConfigured
  else
    match markable (s.machine m) with
    | some p =>
      ⟨s.setMachine m (store (s.machine m) p), .ok, positionBytes (some (machineLabel s m p)) (s.machine m).quality⟩
    | none => refuseWith s .noPosition

/-- MARK IN (R115). -/
def answerMarkIn (m : MachineId) (s : State) : Answer := mark s m (fun x p => { x with markIn := some p })

/-- MARK_IN: the head request is MARK IN. -/
def execMarkIn (s : State) : Step :=
  .next (serveHead s (fun r => match r with | .markIn m => some (answerMarkIn m) | _ => none))

/-- MARK OUT (R115). -/
def answerMarkOut (m : MachineId) (s : State) : Answer := mark s m (fun x p => { x with markOut := some p })

/-- MARK_OUT: the head request is MARK OUT. -/
def execMarkOut (s : State) : Step :=
  .next (serveHead s (fun r => match r with | .markOut m => some (answerMarkOut m) | _ => none))

/-- CLEAR MARKS (R115). -/
def answerClearMarks (m : MachineId) (s : State) : Answer :=
  if (s.machine m).configured then
    ⟨s.setMachine m { s.machine m with markIn := none, markOut := none }, .ok, []⟩
  else refuseWith s .notConfigured

/-- CLEAR_MARKS: the head request is CLEAR MARKS. -/
def execClearMarks (s : State) : Step :=
  .next (serveHead s (fun r => match r with | .clearMarks m => some (answerClearMarks m) | _ => none))

end Sys2Proof.Machine
end

