-- ==== Sys2Proof/Machine/OutputRequests.lean ====
section
/-! DEFINITION. The requests of the Effects Generator (R163, R164) and of the Cue Unit (R168, R173, R177). -/

namespace Sys2Proof.Machine

/-! ### The Effects Generator -/

/-- The select a machine element names: a machine or BLACK (R163). -/
def selectOf? (n : Nat) : Option BusSelect := if n = 8 then some .black else (Unit8.ofNat? n).map .machine

/-- SELECT (R163). -/
def answerSelect (value : Nat) (s : State) : Answer :=
  match selectOf? value with
  | some x => ⟨s.updateEffects (fun g => { g with manual := x }), .ok, busByte x⟩
  | none => refuseWith s .badRequest

/-- SELECT: the head request is SELECT. -/
def execSelect (s : State) : Step :=
  .next (serveHead s (fun r => match r with | .select v => some (answerSelect v) | _ => none))

/-- READ EFFECTS (R164); FFFFh names no line. -/
def answerReadEffects (line : Nat) (s : State) : Answer :=
  if line = 65535 then ⟨s, .ok, effectsData s none⟩
  else if line < s.timeline.standard.lines then ⟨s, .ok, effectsData s (some line)⟩
  else refuseWith s .range

/-- READ_EFFECTS: the head request is READ EFFECTS. -/
def execReadEffects (s : State) : Step :=
  .next (serveHead s (fun r => match r with | .readEffects l => some (answerReadEffects l) | _ => none))

/-! ### The Cue Unit -/

/-- The polarity a number names. -/
def polarityOf? : Nat → Option Polarity
  | 0 => some .activeHigh
  | 1 => some .activeLow
  | _ => none

/-- SET CUE LINE (R168). -/
def answerSetCueLine (line polarity : Nat) (s : State) : Answer :=
  match Unit8.ofNat? line, polarityOf? polarity with
  | some g, some p => ⟨setCueLine s g { s.cueLine g with polarity := p }, .ok, []⟩
  | some _, none => refuseWith s .badRequest
  | none, _ => refuseWith s .badRequest

/-- SET_CUE_LINE: the head request is SET CUE LINE. -/
def execSetCueLine (s : State) : Step :=
  .next (serveHead s (fun r => match r with | .setCueLine l p => some (answerSetCueLine l p) | _ => none))

/-- FIRE (R173). That the line is tested first, then the width, then the STOP state, is the model's reading: R173 names its
refusals in this order and does not rank them (log entry 50). -/
def answerFire (line width : Nat) (s : State) : Answer :=
  match Unit8.ofNat? line with
  | none => refuseWith s .badRequest
  | some g =>
    if !within 1 255 width then refuseWith s .range
    else if s.stopAsserted then refuseWith s .stopped
    else ⟨setCueLine s g ((s.cueLine g).pulse width), .ok, []⟩

/-- FIRE: the head request is FIRE. -/
def execFire (s : State) : Step :=
  .next (serveHead s (fun r => match r with | .fire l w => some (answerFire l w) | _ => none))

/-- READ CUE LINE (R177). -/
def answerReadCueLine (line : Nat) (s : State) : Answer :=
  match Unit8.ofNat? line with
  | some g => ⟨s, .ok, cueLineData s g⟩
  | none => refuseWith s .badRequest

/-- READ_CUE_LINE: the head request is READ CUE LINE. -/
def execReadCueLine (s : State) : Step :=
  .next (serveHead s (fun r => match r with | .readCueLine l => some (answerReadCueLine l) | _ => none))

end Sys2Proof.Machine
end

