-- ==== Sys2Proof/Machine/RunRequests.lean ====
section
/-! DEFINITION. The Run Controller's requests (R121, R136 to R141, R191). -/

namespace Sys2Proof.Machine

/-! ### RUN (R121) -/

/-- The run mode a number names. -/
def runModeOf? : Nat → Option RunMode
  | 0 => some .preview
  | 1 => some .record
  | _ => none

/-- A scope whose labels are converted: the scope, the labels used, and whether one was advanced. -/
structure ConvertedScope where
  scope : Scope
  used : List Byte
  advanced : Bool

/-- Step 1 of R121: the range labels converted to start offsets (R13). -/
def convertScope (s : State) : ScopeBytes → Except Result ConvertedScope
  | .single h => .ok ⟨.single h, [], false⟩
  | .range a z =>
    match convertRecord s a with
    | .error e => .error e
    | .ok (p, x) =>
      match convertRecord s z with
      | .error e => .error e
      | .ok (q, y) =>
        .ok ⟨.range (offsetOf s p) (offsetOf s q),
          labelUsed (timelineLabel s p) (x || y) ++ labelUsed (timelineLabel s q) (x || y), x || y⟩

/-- Steps 3 to 6 of R121. -/
def runRefusal (s : State) (scope : Scope) : Option Result :=
  if !runIdle s then some .busy
  else if s.recorder.isNone then some .noRecorder
  else
    match scope with
    | .range first last => if last < first then some .range else none
    | .single h => if (findEvent s h).isNone then some .noEvent else none

/-- The run record as an accepted RUN writes it (R121). -/
def RunRecord.started (r : RunRecord) (mode : RunMode) (scope : Scope) : RunRecord :=
  { r with
    mode := some mode, scope := some scope, eventsDone := 0, holdCause := none, holdPending := none,
    cursor := match scope with | .range first _ => ⟨first, none⟩ | .single _ => r.cursor }

/-- The event of the first take: the scope's, or the search's (R122). -/
def firstEvent (s : State) : Option Event :=
  match s.run.scope with
  | some (.single h) => findEvent s h
  | some (.range _ _) => searchScope s
  | none => none

/-- The run begun, and its first take (R121, R122). -/
def startRun (s : State) (mode : RunMode) (scope : Scope) : State :=
  let t := s.updateRun (fun r => r.started mode scope)
  takeEvent t (firstEvent t)

/-- RUN (R121). -/
def answerRun (mode : Nat) (scope : ScopeBytes) (s : State) : Answer :=
  match convertScope s scope with
  | .error e => refuseWith s e
  | .ok c =>
    match runModeOf? mode with
    | none => refuseWith s .badRequest
    | some md =>
      match runRefusal s c.scope with
      | some e => refuseWith s e
      | none => ⟨startRun s md c.scope, acceptedOr c.advanced, c.used⟩

/-- RUN: the head request is RUN. -/
def execRun (s : State) : Step :=
  .next (serveHead s (fun r => match r with | .run mode scope => some (answerRun mode scope) | _ => none))

/-! ### HOLD and ABORT (R136, R137) -/

/-- The hold-pending flag after HOLD: a deferred fault stays (R136). -/
def askHold (p : Option PendingHold) : Option PendingHold :=
  match p with
  | some x => if x.cause = .holdRequest then some ⟨.holdRequest, none⟩ else some x
  | none => some ⟨.holdRequest, none⟩

/-- HOLD (R136). -/
def answerHold (s : State) : Answer :=
  match s.run.phase with
  | .idle => refuseWith s .notActive
  | .held => ⟨s, .ok, []⟩
  | .cueing => ⟨s.updateRun (fun r => { r with holdPending := askHold r.holdPending }), .ok, []⟩
  | .rolling => ⟨s.updateRun (fun r => { r with holdPending := askHold r.holdPending }), .ok, []⟩
  | .editing => ⟨s.updateRun (fun r => { r with holdPending := askHold r.holdPending }), .ok, []⟩
  | .postroll => ⟨s.updateRun (fun r => { r with holdPending := askHold r.holdPending }), .ok, []⟩

/-- HOLD: the head request is HOLD. -/
def execHold (s : State) : Step :=
  .next (serveHead s (fun r => match r with | .hold => some answerHold | _ => none))

/-- ABORT (R137); in HELD it changes nothing. -/
def answerAbort (s : State) : Answer :=
  if runIdle s then refuseWith s .notActive else ⟨holdRun s .operatorAbort none, .ok, []⟩

/-- ABORT: the head request is ABORT. -/
def execAbort (s : State) : Step :=
  .next (serveHead s (fun r => match r with | .abort => some answerAbort | _ => none))

/-! ### RESUME and RESET RUN (R138 to R140) -/

/-- The run is HELD. -/
def runHeld (s : State) : Bool := s.run.phase == .held

/-- The live event the current handle names. -/
def currentEvent (s : State) : Option Event := s.run.current.bind (findEvent s)

/-- RESUME RETRY (R138). -/
def answerResumeRetry (s : State) : Answer :=
  if !runHeld s then refuseWith s .notHeld
  else
    match currentEvent s with
    | some e => ⟨takeEvent s (some e), .accepted, []⟩
    | none => refuseWith s .noEvent

/-- RESUME_RETRY: the head request is RESUME RETRY. -/
def execResumeRetry (s : State) : Step :=
  .next (serveHead s (fun r => match r with | .resumeRetry => some answerResumeRetry | _ => none))

/-- The hold cause cleared, and in RANGE scope the cursor moved past the current event (R139). -/
def skipCurrent (s : State) : State :=
  match s.run.current with
  | some h => advanceInRange (s.updateRun (fun r => { r with holdCause := none })) h
  | none => s.updateRun (fun r => { r with holdCause := none })

/-- RESUME SKIP (R139). -/
def answerResumeSkip (s : State) : Answer :=
  if !runHeld s then refuseWith s .notHeld
  else ⟨takeEvent (skipCurrent s) (searchScope (skipCurrent s)), .accepted, []⟩

/-- RESUME_SKIP: the head request is RESUME SKIP. -/
def execResumeSkip (s : State) : Step :=
  .next (serveHead s (fun r => match r with | .resumeSkip => some answerResumeSkip | _ => none))

/-- RESET RUN (R140). -/
def answerResetRun (s : State) : Answer :=
  if !runHeld s then refuseWith s .notHeld
  else
    ⟨enterPhase (s.updateRun (fun r => { r with current := none, holdCause := none, holdPending := none })) .idle, .ok, []⟩

/-- RESET_RUN: the head request is RESET RUN. -/
def execResetRun (s : State) : Step :=
  .next (serveHead s (fun r => match r with | .resetRun => some answerResetRun | _ => none))

/-- READ RUN (R141). -/
def answerReadRun (s : State) : Answer := ⟨s, .ok, runData s⟩

/-- READ_RUN: the head request is READ RUN. -/
def execReadRun (s : State) : Step :=
  .next (serveHead s (fun r => match r with | .readRun => some answerReadRun | _ => none))

/-! ### SET RUN PARAMETERS (R191) -/

/-- A run parameter that is carried lies in its range; one that is omitted passes (R120, R191 step 2). -/
def runParamInRange (x : Option Nat) (lo hi : Nat) : Bool :=
  match x with
  | some v => within lo hi v
  | none => true

/-- The four parameters that would result. -/
def mergeRunParams (p : RunParams) (preroll postroll cueTimeout syncMargin : Option Nat) : RunParams :=
  { preroll := preroll.getD p.preroll, postroll := postroll.getD p.postroll, cueTimeout := cueTimeout.getD p.cueTimeout,
    syncMargin := syncMargin.getD p.syncMargin }

/-- SET RUN PARAMETERS (R191). -/
def answerSetRunParameters (preroll postroll cueTimeout syncMargin : Option Nat) (s : State) : Answer :=
  let p := mergeRunParams s.runParams preroll postroll cueTimeout syncMargin
  if runParamInRange preroll 60 1800 && runParamInRange postroll 0 600 && runParamInRange cueTimeout 600 7200
      && runParamInRange syncMargin 4 600 && p.syncMargin < p.preroll then
    ⟨{ s with runParams := p }, .ok, runParamBytes p⟩
  else refuseWith s .range

/-- SET_RUN_PARAMETERS: the head request is SET RUN PARAMETERS. -/
def execSetRunParameters (s : State) : Step :=
  .next (serveHead s (fun r =>
    match r with | .setRunParameters a b c d => some (answerSetRunParameters a b c d) | _ => none))

end Sys2Proof.Machine
end

