-- ==== Sys2Proof/Machine/Dispatch.lean ====
section
/-! DEFINITION. The dispatch of a command to its meaning, one arm per row of spec/opcode_table.json. -/

namespace Sys2Proof.Machine

def exec (i : Instr) (s : State) : Host.Outcome State Fault Refusal :=
  match i with
  | .fullReset => Sys2Proof.Machine.execFullReset s
  | .resetRelease => Sys2Proof.Machine.execResetRelease s
  | .internalFieldTick takers => Sys2Proof.Machine.execInternalFieldTick takers s
  | .referencePulse elapsed fieldId takers => Sys2Proof.Machine.execReferencePulse elapsed fieldId takers s
  | .gapExpiry => Sys2Proof.Machine.execGapExpiry s
  | .lossExpiry takers => Sys2Proof.Machine.execLossExpiry takers s
  | .exchangeTimeout m => Sys2Proof.Machine.execExchangeTimeout m s
  | .statusReply m chars => Sys2Proof.Machine.execStatusReply m chars s
  | .nakRefused m chars => Sys2Proof.Machine.execNakRefused m chars s
  | .nakLocal m chars => Sys2Proof.Machine.execNakLocal m chars s
  | .checkFailure m chars faulty => Sys2Proof.Machine.execCheckFailure m chars faulty s
  | .unsolicitedCharacter m => Sys2Proof.Machine.execUnsolicitedCharacter m s
  | .portOffline m cause => Sys2Proof.Machine.execPortOffline m cause s
  | .recoveryPoll m => Sys2Proof.Machine.execRecoveryPoll m s
  | .ctlPulse m forward => Sys2Proof.Machine.execCtlPulse m forward s
  | .lock m chars => Sys2Proof.Machine.execLock m chars s
  | .unlock m cause => Sys2Proof.Machine.execUnlock m cause s
  | .roll => Sys2Proof.Machine.execRoll s
  | .cueTimeout => Sys2Proof.Machine.execCueTimeout s
  | .syncDeadline => Sys2Proof.Machine.execSyncDeadline s
  | .editOnField => Sys2Proof.Machine.execEditOnField s
  | .editOffField => Sys2Proof.Machine.execEditOffField s
  | .postrollEnd => Sys2Proof.Machine.execPostrollEnd s
  | .cueFire g => Sys2Proof.Machine.execCueFire g s
  | .cuePulseEnd g => Sys2Proof.Machine.execCuePulseEnd g s
  | .stopAssertion order => Sys2Proof.Machine.execStopAssertion order s
  | .stopRelease => Sys2Proof.Machine.execStopRelease s
  | .transferStart => Sys2Proof.Machine.execTransferStart s
  | .requestReceived bytes => Sys2Proof.Machine.execRequestReceived bytes s
  | .transferEnd bytes => Sys2Proof.Machine.execTransferEnd bytes s
  | .unknownRequest => Sys2Proof.Machine.execUnknownRequest s
  | .readStatus => Sys2Proof.Machine.execReadStatus s
  | .restart => Sys2Proof.Machine.execRestart s
  | .setOrigin => Sys2Proof.Machine.execSetOrigin s
  | .add => Sys2Proof.Machine.execAdd s
  | .trimIn => Sys2Proof.Machine.execTrimIn s
  | .trimOut => Sys2Proof.Machine.execTrimOut s
  | .slip => Sys2Proof.Machine.execSlip s
  | .trimTransition => Sys2Proof.Machine.execTrimTransition s
  | .setSplit => Sys2Proof.Machine.execSetSplit s
  | .move => Sys2Proof.Machine.execMove s
  | .delete => Sys2Proof.Machine.execDelete s
  | .readEvent => Sys2Proof.Machine.execReadEvent s
  | .readOrdinal => Sys2Proof.Machine.execReadOrdinal s
  | .next => Sys2Proof.Machine.execNext s
  | .previous => Sys2Proof.Machine.execPrevious s
  | .count => Sys2Proof.Machine.execCount s
  | .findAt => Sys2Proof.Machine.execFindAt s
  | .matchFrame => Sys2Proof.Machine.execMatchFrame s
  | .clearList => Sys2Proof.Machine.execClearList s
  | .configureMachine => Sys2Proof.Machine.execConfigureMachine s
  | .setRecorder => Sys2Proof.Machine.execSetRecorder s
  | .setStandard elapsed => Sys2Proof.Machine.execSetStandard elapsed s
  | .readMachine => Sys2Proof.Machine.execReadMachine s
  | .stop => Sys2Proof.Machine.execStop s
  | .play => Sys2Proof.Machine.execPlay s
  | .shuttle => Sys2Proof.Machine.execShuttle s
  | .locate => Sys2Proof.Machine.execLocate s
  | .follow => Sys2Proof.Machine.execFollow s
  | .unfollow => Sys2Proof.Machine.execUnfollow s
  | .markIn => Sys2Proof.Machine.execMarkIn s
  | .markOut => Sys2Proof.Machine.execMarkOut s
  | .clearMarks => Sys2Proof.Machine.execClearMarks s
  | .run => Sys2Proof.Machine.execRun s
  | .hold => Sys2Proof.Machine.execHold s
  | .abort => Sys2Proof.Machine.execAbort s
  | .resumeRetry => Sys2Proof.Machine.execResumeRetry s
  | .resumeSkip => Sys2Proof.Machine.execResumeSkip s
  | .resetRun => Sys2Proof.Machine.execResetRun s
  | .readRun => Sys2Proof.Machine.execReadRun s
  | .setRunParameters => Sys2Proof.Machine.execSetRunParameters s
  | .select => Sys2Proof.Machine.execSelect s
  | .readEffects => Sys2Proof.Machine.execReadEffects s
  | .setCueLine => Sys2Proof.Machine.execSetCueLine s
  | .fire => Sys2Proof.Machine.execFire s
  | .readCueLine => Sys2Proof.Machine.execReadCueLine s
  | .replyCharacter m char => Sys2Proof.Machine.execReplyCharacter m char s
  | .requestSent m => Sys2Proof.Machine.execRequestSent m s

end Sys2Proof.Machine
end

