-- ==== Sys2Proof/Safety.lean ====
section
/-! DEFINITION. What a safe state is, and the words in which the statements are made: the capacities of the part's queues
and the bounds of its counts, the list that stays in order and exclusive on each track, the suite at rest under STOP, the
leader chains that end; then a request at the head of the inbound queue, its reply, and the effects that several commands
share. -/

namespace Sys2Proof.Machine

/-! ### Queues and counts -/

/-- How many motion requests a queue holds. -/
def motions (q : List QueuedRequest) : Nat := (q.filter (fun x => x.request.isMotion)).length

/-- A port's queue holds at most 4 requests, of which at most one is a motion request (R75, R84). -/
def Port.queueFits (p : Port) : Prop := p.queue.length ≤ Config.portQueueCapacity ∧ motions p.queue ≤ 1

/-- A request that is on the line stands at the head of the queue (R75). -/
def Port.lineHeld (p : Port) : Prop := p.headOnLine = true → p.queue ≠ []

/-- A port's CTL counter and tally lie in their ranges (R87). -/
def Port.ctlFits (p : Port) : Prop :=
  -32768 ≤ p.ctlCounter ∧ p.ctlCounter ≤ 32767 ∧ p.ctlTally ≤ Config.ctlFrameLimit

/-- Every port's queue fits, and holds the request on the line. -/
def PortQueuesFit (s : State) : Prop := ∀ m, (s.port m).queueFits ∧ (s.port m).lineHeld

/-- The console link's queues hold no more than they can (R181, R183, R186). -/
def ConsoleQueuesFit (s : State) : Prop :=
  s.console.inbound.length ≤ Config.inboundCapacity ∧ s.console.replies.length ≤ Config.replyCapacity
    ∧ s.console.notices.length ≤ Config.noticeCapacity

/-- The counts of a machine record lie in their ranges: the stale count, the lock counts below the counts that they are
counted up to, and the mismatch count of a locate (R93, R95, R104, R113, R114). -/
def MachineRec.countsFit (x : MachineRec) : Prop :=
  x.stale ≤ 8 ∧ (x.params.lockCount ≤ 15 ∧ x.inWindow ≤ 15) ∧ (x.params.unlockCount ≤ 15 ∧ x.outWindow ≤ 15)
    ∧ ∀ l, x.locate = some l → l.mismatches ≤ 2

/-- The good-pulse count, the events-done count, the cueing count and every count of a port and of a machine record lie in
their ranges (R15, R87, R93, R119). -/
def CountsFit (s : State) : Prop :=
  s.timeline.goodCount ≤ Config.goodPulses ∧ s.run.eventsDone ≤ 65535 ∧ s.run.cueingCount ≤ 7200
    ∧ (∀ m, (s.port m).ctlFits) ∧ ∀ m, (s.machine m).countsFit

/-- Every machine record holds a label mode that the standard in force allows (R1, R95). -/
def ModesAllowed (s : State) : Prop := ∀ m, s.timeline.standard.allows (s.machine m).params.mode = true

/-- No block waits for the last field start more than once (R20). -/
def WaitsOnce (s : State) : Prop := s.waiting.Nodup

/-- The commands' effects never overfill a queue, run a count past its range, leave a machine in a label mode that the standard
does not allow, or deliver a field start to a block twice. -/
def Safe (s : State) : Prop :=
  PortQueuesFit s ∧ ConsoleQueuesFit s ∧ CountsFit s ∧ ModesAllowed s ∧ WaitsOnce s

/-! ### The list (R32 to R35) -/

/-- The recorder designated is a configured machine (R95, R97). -/
def RecorderConfigured (s : State) : Prop := ∀ m, s.recorder = some m → (s.machine m).configured = true

/-- Every handle names one event and lies below 512 (R32). -/
def HandlesSound (s : State) : Prop :=
  (∀ e ∈ s.store.events, e.handle < Config.slotCount) ∧ s.store.events.Pairwise (fun a b => a.handle ≠ b.handle)

/-- The events stand in ascending order of their keys, each insertion number belongs to one event and lies below the
counter, and the counter is in its range (R33, R35). -/
def OrderSound (s : State) : Prop :=
  s.store.events.Pairwise (fun a b => keyBefore s a b = true ∧ a.insertion ≠ b.insertion)
    ∧ (∀ e ∈ s.store.events, e.insertion < s.store.counter) ∧ s.store.counter < Config.wordLimit

/-- No two events overlap on a track (R34). -/
def TracksExclusive (s : State) : Prop :=
  s.store.events.Pairwise (fun a b => ∀ t, overlapOn s a.record b.record t = false)

/-- Every event has a field at least, a split below its duration, and lies in the day from the origin (R27, R28). -/
def RecordsFit (s : State) : Prop :=
  ∀ e ∈ s.store.events,
    1 ≤ e.record.duration ∧ e.record.splitOf < (e.record.duration : Int) ∧ endOffset s e.record ≤ dayRec s

/-- The edit list as the Event Store keeps it. -/
def ListSound (s : State) : Prop :=
  RecorderConfigured s ∧ HandlesSound s ∧ OrderSound s ∧ TracksExclusive s ∧ RecordsFit s

/-- What a list change alone may change of the events: handle, insertion number and record, in their order. -/
def listOf (s : State) : List (Nat × Nat × Record) := s.store.events.map (fun e => (e.handle, e.insertion, e.record))

/-- The commands that may change the list itself. -/
def changesList : Instr → Bool
  | .fullReset => true
  | .add => true
  | .trimIn => true
  | .trimOut => true
  | .slip => true
  | .trimTransition => true
  | .setSplit => true
  | .move => true
  | .delete => true
  | .clearList => true
  | _ => false

/-! ### STOP and leaders -/

/-- A cue line without pulse and without compares. -/
def CueLine.atRest (l : CueLine) : Prop :=
  l.active = false ∧ l.counter = 0 ∧ l.armed = none ∧ l.buffered = none ∧ l.pendingList = []

/-- While the STOP input is recognised as asserted, no run is active, every configured machine is FREE without leader, and
no cue line is active or armed (R116, R117, R135, R175). -/
def StopRests (s : State) : Prop :=
  s.stopAsserted = true →
    s.run.phase.active = false
      ∧ (∀ m, (s.machine m).configured = true → (s.machine m).control = .free ∧ (s.machine m).leader = .noLeader)
      ∧ ∀ g, (s.cueLine g).atRest

/-- The walk along the leader chain from a machine ends within a number of steps (R106). -/
def chainEnds (s : State) : Nat → MachineId → Bool
  | 0, m => !(s.machine m).following
  | n + 1, m =>
    match (s.machine m).leader with
    | .machine l _ => chainEnds s n l
    | .noLeader => true
    | .timeline => true

/-- The leader relation among machines holds no cycle: every walk ends within eight steps (R106). -/
def LeadersEnd (s : State) : Prop := ∀ m, chainEnds s 8 m = true

/-! ### Requests and replies -/

/-- The head of the inbound queue lays out a request, and the reply queue has room (R182). -/
def HeadIs (s : State) (q : RequestMessage) (rest : List RequestMessage) (r : Request) : Prop :=
  s.console.inbound = q :: rest ∧ s.console.replies.length < Config.replyCapacity ∧ formRequest q = some r

/-- A state with the head request gone and its one reply placed at the tail (R182, R183). -/
def replied (q : RequestMessage) (rest : List RequestMessage) (result : Result) (data : List Byte) (t : State) : State :=
  { t with console :=
      { t.console with inbound := rest, replies := t.console.replies ++ [⟨q.code, q.tag, result, data⟩] } }

/-- The head request is answered with a refusal that names nothing, and nothing else is changed (R182, R183). -/
def Refuses (c : Instr) (s : State) (q : RequestMessage) (rest : List RequestMessage) (result : Result) : Prop :=
  exec c s = .next (replied q rest result (refusalData { result := result }) s)

/-- The head request is gone and its one reply placed at the tail, whatever else `t` shows. -/
def Replied (s t : State) (q : RequestMessage) (rest : List RequestMessage) (result : Result) (data : List Byte) : Prop :=
  t.console.inbound = rest ∧ t.console.replies = s.console.replies ++ [⟨q.code, q.tag, result, data⟩]
    ∧ t.console.transfer = s.console.transfer ∧ t.console.overrun = s.console.overrun

/-- The results that report a request served; every other one is a refusal (R188). -/
def Result.served : Result → Bool
  | .ok => true
  | .adjusted => true
  | .accepted => true
  | _ => false

/-- The commands by which the Request Handler takes a request. -/
def isRequest : Instr → Bool
  | .unknownRequest | .readStatus | .restart | .setOrigin | .add | .trimIn | .trimOut | .slip | .trimTransition
  | .setSplit | .move | .delete | .readEvent | .readOrdinal | .next | .previous | .count | .findAt | .matchFrame
  | .clearList | .configureMachine | .setRecorder | .setStandard _ | .readMachine | .stop | .play | .shuttle | .locate
  | .follow | .unfollow | .markIn | .markOut | .clearMarks | .run | .hold | .abort | .resumeRetry | .resumeSkip
  | .resetRun | .readRun | .setRunParameters | .select | .readEffects | .setCueLine | .fire | .readCueLine => true
  | _ => false

/-- The console link shows nothing new but notices. -/
def OnlyNotices (s t : State) : Prop :=
  t.console = { s.console with notices := t.console.notices, overflow := t.console.overflow }

/-- What the part's data line carries while n bytes are clocked: the bytes of its message, then filler FFh (R179, R195). -/
def dataOut (message : List Byte) (n : Nat) : List Byte := (List.range n).map (fun i => message.getD i 0xFF#8)

/-- A notice waits, or one was dropped for want of room (R186, R187). -/
def Noticed (t : State) (n : Notice) : Prop := n ∈ t.console.notices ∨ t.console.overflow = true

/-! ### Ports and machines -/

/-- The port holds a motion request now: it is ONLINE, and a motion request is queued or there is room (R83, R84). -/
def TakesMotion (s : State) (m : MachineId) : Prop :=
  s.link m = .online ∧ ((s.port m).queue.any (fun x => x.request.isMotion) = true
    ∨ (s.port m).queue.length < Config.portQueueCapacity)

/-- The queue once a motion request has been placed (R84). -/
def motionQueue (queue : List QueuedRequest) (r : DeckRequest) : List QueuedRequest :=
  if queue.any (fun x => x.request.isMotion) then replaceMotion ⟨r, none⟩ queue else queue ++ [⟨r, none⟩]

/-- The target of a machine's evaluation, where one can be found: the leader TIMELINE's at the timeline position of the field
start that the evaluation is made for, or the leader machine's estimate with the follow offset (R111). -/
def TargetIs (s : State) (m : MachineId) (position : Option Nat) (target : Nat) : Prop :=
  ((s.machine m).leader = .timeline
    ∧ ((position = some target ∧ (s.machine m).terms = none)
      ∨ ∃ p k, position = some p ∧ (s.machine m).terms = some k
          ∧ target = wrap (dayOf s m)
              ((k.sourceIn : Int) + foldDiff (dayRec s) p k.recordIn * ((k.rate : Nat) : Int) / 256)))
    ∨ ∃ l off q, (s.machine m).leader = .machine l off ∧ (s.machine l).position = some q
        ∧ target = wrap (dayOf s m) ((q : Int) + off)

/-- The base b of the speed (R109, R112 step 2): the rate while the leader moves, else 0. -/
def baseSpeed (s : State) (m : MachineId) : Int :=
  match (s.machine m).leader with
  | .timeline =>
    if s.timeline.clock = none then 0
    else match (s.machine m).terms with
      | some k => ((k.rate : Nat) : Int)
      | none => 256
  | .machine l _ =>
    if (s.machine l).transport = some .playing ∨ (s.machine l).transport = some .shuttling then 256 else 0
  | .noLeader => 0

/-- An evaluation of a machine at the estimate p takes `w` to `t` (R111, R112): with a target, v = b + e × G, clamped to the
shuttle limit, is placed as PLAY when it is 256 and as SHUTTLE v otherwise, and is the last speed, when the port holds it; with
none, or while the machine does not chase or the STOP input is asserted, nothing is placed. -/
def ServoActs (w t : State) (m : MachineId) (position : Option Nat) (p : Nat) : Prop :=
  let x := w.machine m
  let limit : Int := x.params.shuttleLimit
  let chases := w.stopAsserted = false ∧ (x.control = .chasing ∨ x.control = .locked)
  let still := t.port m = w.port m ∧ (t.machine m).lastSpeed = x.lastSpeed
  (∀ target, chases → TargetIs w m position target →
      let e := fold (dayOf w m) ((target : Int) - (p : Int) - x.params.lag)
      let v := max (-limit) (min limit (baseSpeed w m + e * ((x.params.gain : Nat) : Int)))
      (TakesMotion w m →
          (t.port m).queue = motionQueue (w.port m).queue (if v = 256 then .play else .shuttle v)
            ∧ (t.machine m).lastSpeed = some v)
        ∧ (¬ TakesMotion w m → still))
    ∧ (¬ chases ∨ (∀ target, ¬ TargetIs w m position target) → still)

/-- The other machines' ports and records are as they were. -/
def OthersKept (s t : State) (m : MachineId) : Prop := ∀ n, n ≠ m → t.port n = s.port n ∧ t.machine n = s.machine n

/-! ### The list as a change leaves it -/

/-- The events an accepted change moves, each with its record moved; the rest as they stand (R54). -/
def movedEvent (s : State) (c : Change) (e : Event) : Event :=
  if (rippleMoves s c).1.any (fun m => m.handle == e.handle) then
    { e with record := shiftRecord (dayRec s) (rippleMoves s c).2 e.record }
  else e

/-- The live events other than a change's target. -/
def bystanders (s : State) (c : Change) : List Event :=
  s.store.events.filter (fun e => some e.handle != c.target.map Event.handle)

/-- The list and the cursor after a renumbering of the events listed (R36, R37): each event keeps its place and all but its
insertion number, which is its ordinal; the counter is the number of events; with j events not after the cursor under the old
numbers, the cursor keeps its start offset, and its insertion number is j − 1, or absent when j is 0. -/
def Renumbered (s t : State) (events : List Event) : Prop :=
  let j := events.countP (fun e => !eventAfter s s.run.cursor e)
  t.store.events.length = events.length ∧ t.store.counter = events.length
    ∧ (∀ (i : Nat) (e : Event), events[i]? = some e → t.store.events[i]? = some { e with insertion := i })
    ∧ t.run = { s.run with cursor := { s.run.cursor with insertion := if j = 0 then none else some (j - 1) } }

/-- The list stands in the order of its keys. -/
def Ordered (s : State) (events : List Event) : Prop := events.Pairwise (fun a b => keyBefore s b a = false)

/-- One event is changed, the others of the ripple are moved, and nothing else: an unchanged record with an unmoved list is
not written (R46, R49, R50, R54). -/
def TargetRewritten (s t : State) (e : Event) (r : Record) (c : Change) : Prop :=
  (e.record = r → (rippleMoves s c).1 = [] → t.store = s.store)
    ∧ (¬ (e.record = r ∧ (rippleMoves s c).1 = []) →
        t.store.counter = s.store.counter ∧ Ordered s t.store.events
          ∧ t.store.events.Perm (rewritten e r :: (bystanders s c).map (movedEvent s c)))
    ∧ t = { s with store := t.store, console := t.console }
    ∧ t.console = { s.console with inbound := t.console.inbound, replies := t.console.replies }

/-! ### Holds and takes -/

/-- What a hold leaves (R134). -/
def HoldTaken (s t : State) (cause : HoldCause) : Prop :=
  (t.run.phase = .held ∧ t.run.holdCause = some cause ∧ t.run.holdPending = none ∧ t.run.copy = none
    ∧ t.run.prior = none ∧ t.run.times = none ∧ t.run.recordingStarted = false ∧ t.run.editSet = TrackSet.none)
    ∧ (t.run.current = s.run.current ∧ t.run.cursor = s.run.cursor ∧ t.run.mode = s.run.mode
      ∧ t.run.scope = s.run.scope ∧ t.run.eventsDone = s.run.eventsDone)
    ∧ (∀ m ∈ runMachines s, (t.machine m).claimed = false
      ∧ ((s.machine m).claimed = true → (t.machine m).control = .free ∧ (t.machine m).leader = .noLeader))
    ∧ t.timeline.clock = none
    ∧ (∀ g, t.cueLine g = (s.cueLine g).discarded) ∧ t.cues.cueSet = none ∧ t.cues.stop = s.cues.stop
    ∧ (∀ h e, s.run.current = some h → findEvent s h = some e →
        findEvent t h = some (if s.run.recordingStarted then e.leftIncomplete else e.restored s.run.prior))
    ∧ listOf t = listOf s ∧ t.effects = s.effects ∧ t.recorder = s.recorder ∧ t.runParams = s.runParams

/-- What a fault of a claimed machine leaves in POSTROLL (R132): the run goes on with a hold pending. A fault that was pending
before is kept; otherwise, and in place of a pending HOLD_REQUEST, the fault is pending with its cause and machine. -/
def FaultDeferred (s t : State) (cause : HoldCause) (m : MachineId) : Prop :=
  t.run = { s.run with holdPending := t.run.holdPending } ∧ t.timeline = s.timeline ∧ t.store = s.store
    ∧ (∀ h, s.run.holdPending = some h → h.cause ≠ .holdRequest → t.run.holdPending = some h)
    ∧ (s.run.holdPending = none ∨ (∃ h, s.run.holdPending = some h ∧ h.cause = .holdRequest) →
        t.run.holdPending = some ⟨cause, some m⟩)

/-- The event as the take makes it (R31). -/
def Event.taken (e : Event) : Event := e.withState .running e.flags

/-- Every cue line is loaded with the event's entries for it, as R169 and R170 say: in PREVIEW mode without the record-only
ones; each a compare at its clamped firing position with its width; in ascending order of the fields from T0, entries of one
position in stored order; the first armed, the second buffered, the rest pending. The output state and counter stay. -/
def LinesLoaded (u t : State) (e : Event) (times : RunTimes) : Prop :=
  ∀ g, ∃ compares : List Compare,
    let entries := e.record.cues.filter (fun c => c.line == g && !(c.recordOnly && u.run.mode.getD .preview == .preview))
    let last := wrap (dayRec u) ((times.postrollEnd : Int) - 1)
    let firesAt := fun c : CueEntry =>
      let raw := wrap (dayRec u)
        ((((if c.anchor = .recordIn then e.record.recordIn else e.record.recordOut (dayRec u)) : Nat) : Int) + c.offset)
      if foldDiff (dayRec u) raw times.t0 < 0 then times.t0 else if 0 < foldDiff (dayRec u) raw last then last else raw
    (∀ n, compares.filter (fun c => c.position == n)
        = (entries.map (fun c => (⟨firesAt c, c.width⟩ : Compare))).filter (fun c => c.position == n))
      ∧ compares.Pairwise
          (fun a b => foldDiff (dayRec u) a.position times.t0 ≤ foldDiff (dayRec u) b.position times.t0)
      ∧ t.cueLine g =
          { u.cueLine g with
            armed := compares.head?, buffered := compares.tail.head?, pendingList := compares.tail.tail }

/-- The parts of the run record that a take leaves as they stood when it was made: the mode and scope, the cursor, the
events-done count and a pending hold. -/
def RunKept (u t : State) : Prop :=
  t.run.mode = u.run.mode ∧ t.run.scope = u.run.scope ∧ t.run.cursor = u.run.cursor
    ∧ t.run.eventsDone = u.run.eventsDone ∧ t.run.holdPending = u.run.holdPending

/-- What a take leaves that has put its event into the run, with every run locate begun (R108, R124, R126, R165, R169,
R170). `u` is the state at the take. -/
def TakeStarted (u t : State) (e : Event) : Prop :=
  (t.run.phase = .cueing ∧ t.run.current = some e.handle ∧ t.run.copy = some e.taken
    ∧ t.run.prior = some ⟨e.state, e.flags⟩ ∧ t.run.holdCause = none ∧ t.run.inForce = some u.runParams
    ∧ t.run.times = some (runTimesOf (dayRec u) (editDelay u) u.runParams e.record) ∧ t.run.cueingCount = 0
    ∧ t.run.editSet = TrackSet.none ∧ t.run.recordingStarted = false)
    ∧ RunKept u t
    ∧ (∀ m ∈ eventMachines u e.record, (t.machine m).claimed = true ∧ (t.machine m).control = .locating
      ∧ (t.machine m).locate
          = some ⟨locateTarget u e.record m (runTimesOf (dayRec u) (editDelay u) u.runParams e.record).t0, .run, false, 0⟩)
    ∧ (∀ m, m ∉ eventMachines u e.record → t.machine m = u.machine m ∧ t.port m = u.port m)
    ∧ findEvent t e.handle = some e.taken ∧ listOf t = listOf u
    ∧ t.effects = { u.effects with programme := some e.taken, stepper := none }
    ∧ t.cues.cueSet = some ⟨e.handle, u.run.mode.getD .preview⟩ ∧ t.cues.stop = u.cues.stop
    ∧ LinesLoaded u t e (runTimesOf (dayRec u) (editDelay u) u.runParams e.record)
    ∧ t.timeline = u.timeline ∧ t.recorder = u.recorder ∧ t.runParams = u.runParams

/-- What a take leaves that finds no event (R122). -/
def TakeEnded (u t : State) : Prop :=
  t.run.phase = .idle ∧ t.run.current = none ∧ t.run.copy = none ∧ t.run.prior = none ∧ t.run.times = none
    ∧ t.run.holdCause = none ∧ RunKept u t
    ∧ Noticed t (.runEnd u.run.mode u.run.eventsDone)
    ∧ t = { u with run := t.run, console := t.console }

/-- What a take leaves that fails validation (R123). -/
def TakeHeld (u t : State) (e : Event) (cause : HoldCause) (m : Option MachineId) : Prop :=
  t.run.phase = .held ∧ t.run.current = some e.handle ∧ t.run.holdCause = some cause
    ∧ t.run.copy = none ∧ t.run.prior = none ∧ t.run.times = none ∧ RunKept u t
    ∧ Noticed t (.runHeld cause m (some e.handle) none u.run.eventsDone)
    ∧ t = { u with run := t.run, console := t.console }

/-- The event of a take can be put into the run: validation passes, and every run locate finds room (R123, R126). -/
def TakeOpen (u : State) (e : Event) : Prop :=
  findEvent u e.handle = some e ∧ (eventMachines u e.record).Nodup
    ∧ validateTake u e.record (runTimesOf (dayRec u) (editDelay u) u.runParams e.record) = none
    ∧ ∀ m ∈ eventMachines u e.record, TakesMotion u m

end Sys2Proof.Machine
end

