-- ==== Sys2Proof/Certificates/Slice0/Obligations.lean ====
section
/-! DEFINITION. The statements for the provers: whole-machine rules and invariants first, then the commands block by block,
each with the next state it gives, then laws of the shared arithmetic, the stepper and the spans. A clause that reads
`t = (s with some fields taken from t)` says that every other field of the state is unchanged. -/

open Sys2Proof Sys2Proof.Machine

/-! ### The whole machine -/

/-- A step runs the command at the front of the queue on the state with the queue's rest; an empty queue idles (log
entry 2: the queue is the model's own). -/
def Obligations.StepRunsFrontCommand : Prop :=
  (∀ (c : Instr) (cs : List Instr) (s : State), step (s.withPending (c :: cs)) = exec c (s.withPending cs))
    ∧ ∀ s : State, s.pending = [] → step s = .next s

/-- What full reset leaves, where the reset tables give a value: R22, R45, R91, R118, R144, R166, R178, R194. -/
def Obligations.ResetLeavesStatedValues : Prop :=
  (State.reset.timeline.standard = .s525 ∧ timelineMode State.reset = .df ∧ State.reset.timeline.origin = 0
      ∧ State.reset.timeline.refState = .absent ∧ State.reset.timeline.goodCount = 0
      ∧ State.reset.timeline.lastPulse = none ∧ State.reset.timeline.clock = none)
    ∧ (State.reset.store.events = [] ∧ State.reset.store.counter = 0)
    ∧ (∀ m, State.reset.link m = .absent ∧ (State.reset.port m).queue = [] ∧ (State.reset.port m).exchange = none
        ∧ (State.reset.port m).errors = 0 ∧ (State.reset.port m).ctlCounter = 0 ∧ (State.reset.port m).ctlTally = 0
        ∧ (State.reset.port m).ctlAnchor = none)
    ∧ (∀ m, (State.reset.machine m).configured = false ∧ (State.reset.machine m).control = .free
        ∧ (State.reset.machine m).claimed = false ∧ (State.reset.machine m).leader = .noLeader
        ∧ (State.reset.machine m).position = none ∧ (State.reset.machine m).quality = .stale
        ∧ (State.reset.machine m).markIn = none ∧ (State.reset.machine m).markOut = none
        ∧ (State.reset.machine m).locate = none ∧ (State.reset.machine m).transport = none
        ∧ (State.reset.machine m).parkedFlag = false ∧ (State.reset.machine m).stale = 0
        ∧ (State.reset.machine m).inWindow = 0 ∧ (State.reset.machine m).outWindow = 0
        ∧ (State.reset.machine m).lastSpeed = none)
    ∧ State.reset.recorder = none
    ∧ (State.reset.run.phase = .idle ∧ State.reset.run.mode = none ∧ State.reset.run.scope = none
        ∧ State.reset.run.current = none ∧ State.reset.run.cursor = ⟨0, none⟩ ∧ State.reset.run.holdCause = none
        ∧ State.reset.run.holdPending = none ∧ State.reset.run.eventsDone = 0 ∧ State.reset.run.copy = none
        ∧ State.reset.run.prior = none ∧ State.reset.run.times = none ∧ State.reset.run.inForce = none
        ∧ State.reset.run.editSet = TrackSet.none ∧ State.reset.run.recordingStarted = false
        ∧ State.reset.run.cueingCount = 0 ∧ State.reset.runParams = ⟨300, 120, 3600, 60⟩)
    ∧ (State.reset.effects.manual = .black ∧ State.reset.effects.programme = none ∧ State.reset.effects.freeze = false
        ∧ State.reset.effects.frame = ⟨.black, .black, 0, List.replicate 240 []⟩ ∧ State.reset.effects.form = .manual
        ∧ State.reset.effects.stepper = none)
    ∧ (∀ g, (State.reset.cueLine g).polarity = .activeHigh ∧ (State.reset.cueLine g).atRest)
    ∧ State.reset.cues.cueSet = none ∧ State.reset.stopAsserted = false
    ∧ (State.reset.console.inbound = [] ∧ State.reset.console.replies = [] ∧ State.reset.console.notices = []
        ∧ State.reset.console.overrun = false ∧ State.reset.console.overflow = false
        ∧ State.reset.console.transfer = none ∧ State.reset.attention = false)

/-- The RESET input puts the part at its reset state and releases the attention line; its release starts the internal field
clock, whose first field start comes one period of the 525 standard later, with field count 0 and parity field 1 (R18, R194).
That the reset state is held until the release is the model's reading (log entry 7). -/
def Obligations.ResetInputRestartsFieldClock : Prop :=
  (∀ s : State, exec .fullReset s = .next { State.reset with inReset := true, pending := s.pending })
    ∧ (∀ s : State, s.inReset = true → s.attention = false)
    ∧ (∀ s : State, s.inReset = true →
        exec .resetRelease s = .next
          { s with
            inReset := false
            timeline := { s.timeline with clockBase := s.now, lastTick := none, tickParity := .field2 } })
    ∧ ∀ takers : List Receiver, ∃ t, exec (.internalFieldTick takers) State.reset = .next t
        ∧ t.timeline.field = some ⟨0, .field1⟩ ∧ t.now = 4004

/-- The reset state meets the four invariants stated below. -/
def Obligations.InvariantsHoldAtReset : Prop :=
  Safe State.reset ∧ ListSound State.reset ∧ StopRests State.reset ∧ LeadersEnd State.reset

/-- Every step keeps every queue within its capacity, at most one motion request in each port's queue, the request on a line
at the head of its port's queue, and these counts in their ranges: the good-pulse count, the events-done count, the cueing
count, each CTL counter and tally, and each machine's stale count, lock counts and mismatch count; and it keeps every machine
record in a label mode of the parameter range, one that the standard in force allows, and has no block wait twice for a field
start (R1, R15, R20, R75, R84, R87, R93, R95, R104, R114, R119, R181, R183, R186). -/
def Obligations.QueuesAndCountsStayInRange : Prop :=
  ∀ s t : State, Safe s → step s = .next t → Safe t

/-- Every step keeps the list: handles and insertion numbers stay unique, the events stay in the order of their keys, and no
two overlap on a track, whatever is added, trimmed, slipped, moved, rippled or deleted (R32 to R36, R52 to R54). -/
def Obligations.ListStaysOrderedAndExclusive : Prop :=
  ∀ s t : State, ListSound s → step s = .next t → ListSound t

/-- Every step keeps the suite at rest while the STOP input is recognised as asserted (R116, R117, R123, R135, R173, R175). -/
def Obligations.StopKeepsSuiteAtRest : Prop :=
  ∀ s t : State, StopRests s → step s = .next t → StopRests t

/-- Every step keeps the leader relation free of cycles (R106). -/
def Obligations.LeadersNeverCycle : Prop :=
  ∀ s t : State, LeadersEnd s → step s = .next t → LeadersEnd t

/-- A request command takes nothing, or takes the head of the inbound queue and places exactly one reply, which carries its
code and tag, at the tail of the reply queue; RESTART empties both queues first; and a reply that is a refusal says that
nothing else was changed (R46, R182, R183, R188, R193). -/
def Obligations.RequestsAnsweredOnceRefusalsChangeNothing : Prop :=
  ∀ (c : Instr) (s t : State), isRequest c = true → exec c s = .next t →
    t = s
      ∨ ∃ q rest result data, s.console.inbound = q :: rest
          ∧ ((c ≠ .restart ∧ s.console.replies.length < Config.replyCapacity ∧ t.console.inbound = rest
                ∧ t.console.replies = s.console.replies ++ [⟨q.code, q.tag, result, data⟩]
                ∧ (result.served = false → t = replied q rest result data s))
              ∨ (c = .restart ∧ t.console.inbound = [] ∧ t.console.notices = []
                ∧ t.console.replies = [⟨q.code, q.tag, .ok, data⟩]))

/-- Only full reset, CLEAR LIST and the eight change requests change the list: no other command alters a handle, an
insertion number, a record or the order (R31, R46). -/
def Obligations.OnlyListRequestsChangeList : Prop :=
  ∀ (c : Instr) (s t : State), changesList c = false → exec c s = .next t →
    listOf t = listOf s ∧ t.store.counter = s.store.counter

/-! ### The Timeline Unit -/

/-- INTERNAL_FIELD_TICK: while the part is not on reference, the clock makes a field start one period after its last, of the
opposite parity; the field count is 0 at the first field start, rises by one at each, and returns to 0 after 4,294,967,295;
the blocks named take it now, the others wait (R18, R20). Which blocks take it within the step is the model's operand (log
entry 2). -/
def Obligations.InternalTickMakesFieldStart : Prop :=
  ∀ (s : State) (takers : List Receiver), s.inReset = false → s.timeline.refState ≠ .onReference →
    ∃ t, exec (.internalFieldTick takers) s = .next t
      ∧ t.timeline =
          { s.timeline with
            field := some ⟨nextCount s, opposite s.timeline.tickParity⟩
            clockBase := s.timeline.clockBase + s.timeline.standard.period
            lastTick := some (s.timeline.clockBase + s.timeline.standard.period)
            tickParity := opposite s.timeline.tickParity
            clock := t.timeline.clock }
      ∧ t.now = max s.now (s.timeline.clockBase + s.timeline.standard.period)
      ∧ (∀ r, t.waiting.contains r = !takers.contains r)
      ∧ listOf t = listOf s ∧ t.recorder = s.recorder ∧ t.runParams = s.runParams ∧ t.cues.stop = s.cues.stop
      ∧ OnlyNotices s t ∧ t.pending = s.pending
      ∧ (s.timeline.field = none → fieldCount t = 0)
      ∧ (∀ f, s.timeline.field = some f → f.count < 4294967295 → fieldCount t = f.count + 1)
      ∧ (∀ f, s.timeline.field = some f → f.count = 4294967295 → fieldCount t = 0)

/-- REFERENCE_PULSE while the part runs on its internal clock and does not switch: an early pulse is ignored; any other is
taken, a continuing one raises the good-pulse count up to 16 and any other sets it to 1, and the count sets the reference
state (R15). The pulse makes no field start. `T` is its time. -/
def Obligations.PulsesAreCountedOffReference : Prop :=
  ∀ (s : State) (elapsed : Nat) (id : Parity) (takers : List Receiver), s.inReset = false →
    let T := s.now + elapsed
    let n := fun p : Pulse =>
      if 2 * (T - p.time) ≤ 3 * s.timeline.standard.period ∧ id = opposite p.fieldId ∧ s.timeline.goodCount ≠ 0
      then min 16 (s.timeline.goodCount + 1) else 1
    (∀ p, s.timeline.lastPulse = some p → 4 * (T - p.time) < 3 * s.timeline.standard.period →
        exec (.referencePulse elapsed id takers) s = .next { s with now := T })
      ∧ (s.timeline.refState ≠ .onReference → maySwitch s T id = false →
          (∀ p, s.timeline.lastPulse = some p → 3 * s.timeline.standard.period ≤ 4 * (T - p.time) →
            exec (.referencePulse elapsed id takers) s = .next
              { s with
                now := T
                timeline := { s.timeline with
                  lastPulse := some ⟨T, id⟩, goodCount := n p
                  refState := if n p = 16 then .presentWaiting else .absent } })
          ∧ (s.timeline.lastPulse = none →
            exec (.referencePulse elapsed id takers) s = .next
              { s with
                now := T
                timeline := { s.timeline with lastPulse := some ⟨T, id⟩, goodCount := 1, refState := .absent } }))

/-- REFERENCE_PULSE on reference: a continuing pulse makes a field start with its own field identification as parity, and
the loss expiry is timed from it; a pulse that is not continuing makes none, and no later pulse makes one while the state
stays ON_REFERENCE (R15, R16). -/
def Obligations.PulsesMakeFieldStartsOnReference : Prop :=
  ∀ (s : State) (elapsed : Nat) (id : Parity) (takers : List Receiver) (p : Pulse), s.inReset = false →
    s.timeline.refState = .onReference → s.timeline.lastPulse = some p →
      3 * s.timeline.standard.period ≤ 4 * (s.now + elapsed - p.time) →
    (2 * (s.now + elapsed - p.time) ≤ 3 * s.timeline.standard.period → id = opposite p.fieldId →
        s.timeline.goodCount ≠ 0 → s.timeline.refBroken = false →
        ∃ t, exec (.referencePulse elapsed id takers) s = .next t
          ∧ t.timeline =
              { s.timeline with
                field := some ⟨nextCount s, id⟩, lastPulse := some ⟨s.now + elapsed, id⟩
                goodCount := min 16 (s.timeline.goodCount + 1), refFieldStart := some (s.now + elapsed)
                clock := t.timeline.clock }
          ∧ t.now = s.now + elapsed ∧ (∀ r, t.waiting.contains r = !takers.contains r)
          ∧ listOf t = listOf s ∧ OnlyNotices s t ∧ t.recorder = s.recorder ∧ t.runParams = s.runParams)
      ∧ (2 * (s.now + elapsed - p.time) ≤ 3 * s.timeline.standard.period → id = opposite p.fieldId →
        s.timeline.goodCount ≠ 0 → s.timeline.refBroken = true →
        exec (.referencePulse elapsed id takers) s = .next
          { s with
            now := s.now + elapsed
            timeline := { s.timeline with
              lastPulse := some ⟨s.now + elapsed, id⟩, goodCount := min 16 (s.timeline.goodCount + 1) } })
      ∧ (3 * s.timeline.standard.period < 2 * (s.now + elapsed - p.time) ∨ id = p.fieldId ∨ s.timeline.goodCount = 0 →
        exec (.referencePulse elapsed id takers) s = .next
          { s with
            now := s.now + elapsed
            timeline := { s.timeline with
              lastPulse := some ⟨s.now + elapsed, id⟩, goodCount := 1, refBroken := true } })

/-- REFERENCE_PULSE that switches: a continuing pulse in PRESENT_WAITING with the count at 16 while the run is IDLE or HELD
puts the part on reference and raises REFERENCE RESTORED; it makes a field start with its own parity unless the internal clock
made one less than half a period before (R19). That the blocks still waiting for the last field start take it first is the
model's order (log entry 21). -/
def Obligations.SwitchToReferenceAtRest : Prop :=
  ∀ (s : State) (elapsed : Nat) (id : Parity) (takers : List Receiver) (p : Pulse), s.inReset = false →
    s.timeline.refState = .presentWaiting → s.timeline.goodCount = 16 → s.timeline.lastPulse = some p →
      3 * s.timeline.standard.period ≤ 4 * (s.now + elapsed - p.time) →
      2 * (s.now + elapsed - p.time) ≤ 3 * s.timeline.standard.period → id = opposite p.fieldId →
    ((settle s).run.phase.active = false →
        ∃ t, exec (.referencePulse elapsed id takers) s = .next t
          ∧ t.timeline.refState = .onReference ∧ t.timeline.refFieldStart = some (s.now + elapsed)
          ∧ t.timeline.refBroken = false ∧ t.timeline.goodCount = 16
          ∧ t.timeline.lastPulse = some ⟨s.now + elapsed, id⟩ ∧ Noticed t (.reference .restored)
          ∧ (∀ k, s.timeline.lastTick = some k → 2 * (s.now + elapsed - k) < s.timeline.standard.period →
              t.timeline.field = s.timeline.field)
          ∧ ((s.timeline.lastTick = none
              ∨ ∃ k, s.timeline.lastTick = some k ∧ s.timeline.standard.period ≤ 2 * (s.now + elapsed - k)) →
              t.timeline.field = some ⟨nextCount s, id⟩)
          ∧ listOf t = listOf s)
      ∧ ((settle s).run.phase.active = true →
        ∃ t, exec (.referencePulse elapsed id takers) s = .next t
          ∧ t.timeline.refState = .presentWaiting ∧ t.timeline.goodCount = 16
          ∧ t.timeline.lastPulse = some ⟨s.now + elapsed, id⟩ ∧ t.timeline.field = s.timeline.field)

/-- GAP_EXPIRY: 1.5 periods after the last taken pulse the good-pulse count goes to 0, which takes PRESENT_WAITING to ABSENT
without a notice and leaves ON_REFERENCE as it stands (R15). LOSS_EXPIRY: the reference is lost; the internal clock makes a
field start at once, of the parity opposite to the last, REFERENCE LOST is raised, and an active run holds with REFERENCE_LOST
(R17). Blocks that still waited take the last field start first (log entry 21); none of them waits twice, which every step keeps
(`WaitsOnce`, in `Safe`). -/
def Obligations.ExpiriesEndTheReference : Prop :=
  (∀ (s : State) (p : Pulse), s.inReset = false → s.timeline.lastPulse = some p →
    exec .gapExpiry s = .next
      { s with
        now := max s.now (p.time + 3 * s.timeline.standard.period / 2)
        timeline := { s.timeline with
          goodCount := 0, refState := if s.timeline.refState = .onReference then .onReference else .absent } })
  ∧ ∀ (s : State) (takers : List Receiver) (f : Nat) (last : FieldStart), s.inReset = false →
    s.timeline.refState = .onReference → s.timeline.refFieldStart = some f → s.timeline.field = some last →
    ∃ t, exec (.lossExpiry takers) s = .next t
      ∧ t.timeline.refState = .absent ∧ t.timeline.refFieldStart = none
      ∧ t.timeline.field = some ⟨nextCount s, opposite last.parity⟩
      ∧ t.timeline.clockBase = f + 3 * s.timeline.standard.period / 2
      ∧ t.timeline.lastTick = some (f + 3 * s.timeline.standard.period / 2)
      ∧ t.timeline.goodCount = s.timeline.goodCount ∧ Noticed t (.reference .lost)
      ∧ t.run.phase.active = false
      ∧ (takers = [] → WaitsOnce s → (settle s).run.phase.active = true →
          t.run.phase = .held ∧ t.run.holdCause = some .referenceLost ∧ t.timeline.clock = none)
      ∧ listOf t = listOf s ∧ t.recorder = s.recorder

/-- SET ORIGIN, SET RECORDER and SET STANDARD need the run IDLE, else BUSY, and the list empty, else LIST_NOT_EMPTY. SET
ORIGIN takes the label's field number (R13). SET RECORDER designates a configured machine or none, and sets the origin to 0
(R97). SET STANDARD sets the standard, the origin to 0 and the reference state to ABSENT, re-times the internal clock, and
gives every configured machine the new default label mode, with no estimate, no marks and no follow (R2, R98). That the record of an
unconfigured machine takes the new default mode at once, and keeps the rest, is the model's reading (log entry 32): R98 says
that such a machine takes the default when it is next configured. That SET STANDARD keeps the last taken pulse and the time of the last tick is the
model's reading (log entry 11), and its operand, the time since the last timed event, the model's choice (log entry 36). That
SET ORIGIN tests BUSY first is the model's reading (log entry 50). -/
def Obligations.DomainRequestsNeedIdleEmptyList : Prop :=
  ∀ (s : State) (q : RequestMessage) (rest : List RequestMessage),
    (∀ l, HeadIs s q rest (.setOrigin l) →
      (labelInRange (timelineMode s) l = false → Refuses .setOrigin s q rest .badTimecode)
        ∧ ∀ p advanced, consoleLabel (timelineMode s) l = some (p, advanced) →
          (s.run.phase ≠ .idle → Refuses .setOrigin s q rest .busy)
            ∧ (s.run.phase = .idle → s.store.events ≠ [] → Refuses .setOrigin s q rest .listNotEmpty)
            ∧ (s.run.phase = .idle → s.store.events = [] →
              exec .setOrigin s = .next
                (replied q rest (if advanced then .adjusted else .ok) (labelBytes (labelOf (timelineMode s) p))
                  { s with timeline := { s.timeline with origin := p } })))
      ∧ (∀ r, HeadIs s q rest (.setRecorder r) →
        (∀ m, r = some m → (s.machine m).configured = false → Refuses .setRecorder s q rest .notConfigured)
          ∧ ((∀ m, r = some m → (s.machine m).configured = true) →
            (s.run.phase ≠ .idle → Refuses .setRecorder s q rest .busy)
              ∧ (s.run.phase = .idle → s.store.events ≠ [] → Refuses .setRecorder s q rest .listNotEmpty)
              ∧ (s.run.phase = .idle → s.store.events = [] →
                exec .setRecorder s = .next
                  (replied q rest .ok (machineOrNone r ++ u8 (timelineMode { s with recorder := r }).code)
                    { s with recorder := r, timeline := { s.timeline with origin := 0 } }))))
      ∧ ∀ v elapsed, HeadIs s q rest (.setStandard v) →
        (1 < v → Refuses (.setStandard elapsed) s q rest .badRequest)
          ∧ (v ≤ 1 → s.run.phase ≠ .idle → Refuses (.setStandard elapsed) s q rest .busy)
          ∧ (v ≤ 1 → s.run.phase = .idle → s.store.events ≠ [] →
            Refuses (.setStandard elapsed) s q rest .listNotEmpty)
          ∧ ∀ std, standardOf? v = some std → s.run.phase = .idle → s.store.events = [] →
            ∃ t, exec (.setStandard elapsed) s = .next t ∧ Replied s t q rest .ok []
              ∧ t.timeline =
                  { s.timeline with
                    standard := std, origin := 0, refState := .absent, goodCount := 0, refFieldStart := none
                    refBroken := false, clockBase := s.now + elapsed
                    tickParity := (s.timeline.field.map FieldStart.parity).getD s.timeline.tickParity }
              ∧ (∀ m, (s.machine m).configured = true →
                  (t.machine m).params = { (s.machine m).params with mode := std.defaultMode }
                    ∧ (t.machine m).position = none ∧ (t.machine m).quality = .stale ∧ (t.machine m).markIn = none
                    ∧ (t.machine m).markOut = none ∧ (t.machine m).following = false
                    ∧ (t.machine m).control ≠ .locating ∧ (t.port m).ctlAnchor = none)
              ∧ (∀ m, (s.machine m).configured = false → (s.machine m).following = false →
                  t.machine m =
                    { s.machine m with params := { (s.machine m).params with mode := std.defaultMode } })
              ∧ (s.timeline.refState = .onReference → Noticed t (.reference .lost))
              ∧ t.recorder = s.recorder ∧ t.run = s.run ∧ t.store = s.store ∧ t.effects = s.effects
              ∧ t.cues = s.cues ∧ t.runParams = s.runParams

/-! ### The console link -/

/-- TRANSFER_START: the part sends the oldest reply, else the oldest notice, else the empty message, which it also sends
while the RESET input is asserted; the message stays in its queue, and no byte has gone out yet (R184, R194, R201). -/
def Obligations.TransferStartChoosesOldest : Prop :=
  ∀ s : State, s.console.transfer = none →
    (∀ r rs, s.inReset = false → s.console.replies = r :: rs →
        exec .transferStart s = .next
          { s with console := { s.console with transfer := some ⟨replyBytes r, .replyQueue, false, 0, false⟩, sent := [] } })
      ∧ (∀ n ns, s.inReset = false → s.console.replies = [] → s.console.notices = n :: ns →
        exec .transferStart s = .next
          { s with console := { s.console with transfer := some ⟨noticeBytes n, .noticeQueue, false, 0, false⟩, sent := [] } })
      ∧ (s.inReset = false → s.console.replies = [] → s.console.notices = [] →
        exec .transferStart s = .next
          { s with console := { s.console with transfer := some ⟨[0#8], .noQueue, false, 0, false⟩, sent := [] } })
      ∧ (s.inReset = true →
        exec .transferStart s = .next
          { s with console := { s.console with transfer := some ⟨[0#8], .noQueue, false, 0, true⟩, sent := [] } })

/-- REQUEST_RECEIVED: a request whose length has arrived joins the inbound queue, or is discarded with the overrun flag set
when the queue holds 8; the empty message is no request; a length too small for a code and a tag is a truncated request
(R180, R181). Meanwhile the part has sent as many bytes: its message, then filler (R179, R195). -/
def Obligations.ReceivedRequestJoinsQueue : Prop :=
  ∀ (s : State) (x : Transfer), s.console.transfer = some x → x.dead = false → x.received = false →
    (∀ n code tag params, n.toNat = params.length + 2 → s.console.inbound.length < 8 →
        exec (.requestReceived (n :: code :: tag :: params)) s = .next
          { s with console := { s.console with
              inbound := s.console.inbound ++ [⟨code, tag, params⟩]
              transfer := some { x with received := true, clocked := x.clocked + (params.length + 3) }
              sent := dataOut x.outgoing (x.clocked + (params.length + 3)) } })
      ∧ (∀ n code tag params, n.toNat = params.length + 2 → 8 ≤ s.console.inbound.length →
        exec (.requestReceived (n :: code :: tag :: params)) s = .next
          { s with console := { s.console with
              overrun := true
              transfer := some { x with received := true, clocked := x.clocked + (params.length + 3) }
              sent := dataOut x.outgoing (x.clocked + (params.length + 3)) } })
      ∧ (∀ b : Byte, exec (.requestReceived [1#8, b]) s = .next
          { s with console := { s.console with
              overrun := true, transfer := some { x with received := true, clocked := x.clocked + 2 }
              sent := dataOut x.outgoing (x.clocked + 2) } })
      ∧ exec (.requestReceived [0#8]) s = .next
          { s with console := { s.console with
              transfer := some { x with received := true, clocked := x.clocked + 1 }
              sent := dataOut x.outgoing (x.clocked + 1) } }

/-- TRANSFER_END: a reply or notice sent whole leaves its queue, whether or not a request was received; one that was not
stays at its place, but for a MACHINE_STATE notice that a newer one for its machine stands behind. The part has sent its message
and then filler FFh for the rest (R179, R184, R186, R195). A request whose last byte arrives now joins the inbound queue, or sets
the overrun flag, what is clocked after it being ignored; one cut short sets the overrun flag; in a transfer that began while the
RESET input was asserted nothing is received (R180, R181, R201). That a transfer in which no byte was clocked sets no flag is
the model's choice (log entry 22). -/
def Obligations.TransferEndRemovesMessageSent : Prop :=
  ∀ (s : State) (x : Transfer) (bytes : List Byte), s.console.transfer = some x →
    let whole : Bool := x.outgoing.length ≤ x.clocked + bytes.length
    let ended : ConsolePort :=
      { s.console with
        replies := if x.source = .replyQueue ∧ whole = true then s.console.replies.drop 1 else s.console.replies
        notices := if x.source = .noticeQueue ∧ (whole = true ∨ superseded s.console.notices = true)
          then s.console.notices.drop 1 else s.console.notices
        transfer := none
        sent := dataOut x.outgoing (x.clocked + bytes.length) }
    (x.received = true ∨ x.dead = true ∨ bytes = [] →
        exec (.transferEnd bytes) s = .next { s with console := ended })
      ∧ (x.received = false → x.dead = false →
        (∀ n body, bytes = n :: body → body.length < n.toNat →
            exec (.transferEnd bytes) s = .next { s with console := { ended with overrun := true } })
          ∧ (∀ n body, bytes = n :: body → n.toNat = 1 → 1 ≤ body.length →
            exec (.transferEnd bytes) s = .next { s with console := { ended with overrun := true } })
          ∧ (∀ body, bytes = 0#8 :: body → exec (.transferEnd bytes) s = .next { s with console := ended })
          ∧ ∀ n code tag params surplus, bytes = n :: code :: tag :: (params ++ surplus) → n.toNat = params.length + 2 →
            (s.console.inbound.length < 8 →
                exec (.transferEnd bytes) s = .next
                  { s with console := { ended with inbound := s.console.inbound ++ [⟨code, tag, params⟩] } })
              ∧ (8 ≤ s.console.inbound.length →
                exec (.transferEnd bytes) s = .next { s with console := { ended with overrun := true } }))

/-- The attention line is asserted while the reply queue or the notice queue holds a message, and released while both are
empty and while the RESET input is asserted (R185). A notice is placed at the tail. A MACHINE_STATE takes the place of an unread
one for its machine, even in a full queue; any other notice raised while the queue holds 32 is dropped, the overflow flag is set,
and the ones that wait are kept (R186, R187). The notice on the link is not unread. -/
def Obligations.NoticesAreQueuedInOrder : Prop :=
  (∀ s : State, s.attention = true ↔ s.inReset = false ∧ (s.console.replies ≠ [] ∨ s.console.notices ≠ []))
  ∧ ∀ (s : State) (n : Notice),
    (n.stateMachine? = none → s.console.notices.length < 32 →
        raiseNotice s n = { s with console := { s.console with notices := s.console.notices ++ [n] } })
      ∧ (n.stateMachine? = none → 32 ≤ s.console.notices.length →
        raiseNotice s n = { s with console := { s.console with overflow := true } })
      ∧ (∀ m, n.stateMachine? = some m →
        ((∀ o ∈ s.console.notices.drop s.console.noticesOnLink, o.stateMachine? ≠ some m) →
            (s.console.notices.length < 32 →
              raiseNotice s n = { s with console := { s.console with notices := s.console.notices ++ [n] } })
            ∧ (32 ≤ s.console.notices.length →
              raiseNotice s n = { s with console := { s.console with overflow := true } }))
        ∧ ∀ a o z, s.console.notices.drop s.console.noticesOnLink = a ++ o :: z → o.stateMachine? = some m →
            (∀ x ∈ a, x.stateMachine? ≠ some m) →
            raiseNotice s n = { s with console := { s.console with
              notices := s.console.notices.take s.console.noticesOnLink ++ a ++ z ++ [n] } })

/-- UNKNOWN_REQUEST: a head request with an unknown code or a wrong layout is answered BAD_REQUEST with its code and tag,
and no owner sees it (R182); every code that is not in the table of requests is unknown: 00h, 03h to 07h, 09h to 0Fh, 2Dh to
2Fh, 3Ah, 3Bh and 3Fh to FFh (R195). While the reply queue is full it waits. -/
def Obligations.UnknownRequestAnsweredBadRequest : Prop :=
  ∀ (s : State) (q : RequestMessage) (rest : List RequestMessage),
    let n := q.code.toNat
    let listed := n = 0x01 ∨ n = 0x02 ∨ n = 0x08 ∨ (0x10 ≤ n ∧ n ≤ 0x2c) ∨ (0x30 ≤ n ∧ n ≤ 0x39) ∨ (0x3c ≤ n ∧ n ≤ 0x3e)
    (¬ listed → formRequest q = none)
      ∧ (s.console.inbound = q :: rest → ¬ listed ∨ formRequest q = none →
        (s.console.replies.length < 8 → Refuses .unknownRequest s q rest .badRequest)
          ∧ (8 ≤ s.console.replies.length → exec .unknownRequest s = .next s))

/-- RESTART: served whatever the reply queue holds; the run goes IDLE, a RUNNING event becomes OPEN with INCOMPLETE set, the
clock stops, every configured machine is FREE, unclaimed and without leader, the cues and the programme are discarded and the
freeze cleared, the link's queues hold its reply alone; each ONLINE machine's port holds STOP, and the recorder's port EDIT OFF
for the tracks in edit ahead of it (R91, R118, R143); the list, the configuration, the marks, the origin, the standard, the run
parameters, the polarities, the manual selection, and the run's mode, scope, cursor and events-done count are kept (R192, R193).
The reply counts the notices discarded: those that waited, and those of the work, up to the 32 that the queue holds. That the
work's notices are EVENT_STATE of a RUNNING event and MACHINE_STATE of each machine it changes, and none for a locate, is the
model's reading (log entries 35, 43, 44). -/
def Obligations.RestartBringsSuiteToRest : Prop :=
  ∀ (s : State) (q : RequestMessage) (rest : List RequestMessage), s.console.inbound = q :: rest →
    formRequest q = some .restart →
    ∃ t, exec .restart s = .next t
      ∧ (t.console.inbound = [] ∧ t.console.notices = [] ∧ t.console.overrun = false ∧ t.console.overflow = false
        ∧ ∃ n o, t.console.replies = [⟨q.code, q.tag, .ok,
            u16 rest.length ++ u16 s.console.replies.length ++ u16 n ++ flagByte s.console.overrun ++ flagByte o⟩]
          ∧ (s.console.overflow = true → o = true)
          ∧ (s.console.notices.length ≤ 32 →
            s.console.notices.length ≤ n ∧ n ≤ 32
              ∧ ((∃ e ∈ s.store.events, e.state = .running) → min 32 (s.console.notices.length + 1) ≤ n)
              ∧ ((∀ k ∈ s.console.notices, k.stateMachine? = none) →
                (∀ m, (s.machine m).claimed = true → (s.machine m).configured = true) →
                let work := s.console.notices.length + s.store.events.countP (fun e => e.state == .running)
                  + Unit8.all.countP (fun m => (s.machine m).configured
                      && ((s.machine m).claimed || (s.machine m).control != .free))
                n = min 32 work ∧ (o = true ↔ s.console.overflow = true ∨ 32 < work))))
      ∧ (t.run.phase = .idle ∧ t.run.current = none ∧ t.run.copy = none ∧ t.run.prior = none ∧ t.run.times = none
        ∧ t.run.recordingStarted = false ∧ t.run.editSet = TrackSet.none ∧ t.run.holdCause = none
        ∧ t.run.holdPending = none ∧ t.run.mode = s.run.mode ∧ t.run.scope = s.run.scope ∧ t.run.cursor = s.run.cursor
        ∧ t.run.eventsDone = s.run.eventsDone)
      ∧ t.store = { s.store with
          events := s.store.events.map (fun e => if e.state = .running then e.leftIncomplete else e) }
      ∧ t.timeline = { s.timeline with clock := none }
      ∧ (∀ m, (s.machine m).configured = true →
          (t.machine m).control = .free ∧ (t.machine m).claimed = false ∧ (t.machine m).leader = .noLeader
            ∧ (t.machine m).locate = none ∧ (t.machine m).configured = true
            ∧ (t.machine m).params = (s.machine m).params ∧ (t.machine m).markIn = (s.machine m).markIn
            ∧ (t.machine m).markOut = (s.machine m).markOut ∧ (t.machine m).position = (s.machine m).position)
      ∧ (∀ m, t.link m = s.link m ∧ (t.port m).exchange = none ∧ (t.port m).errors = 0)
      ∧ (∀ m, (s.machine m).configured = true → s.link m = .online →
          (t.port m).queue =
              (if s.recorder = some m ∧ s.run.editSet.isEmpty = false then [⟨.editOff s.run.editSet, s.run.current⟩] else [])
                ++ [⟨.stop, none⟩]
            ∧ (t.machine m).lastSpeed = some 0)
      ∧ (∀ m, (s.machine m).configured = true → s.link m ≠ .online → (t.port m).queue = [])
      ∧ (∀ g, (t.cueLine g).atRest ∧ (t.cueLine g).polarity = (s.cueLine g).polarity)
      ∧ t.cues.cueSet = none ∧ t.cues.stop = s.cues.stop
      ∧ t.effects = { s.effects with programme := none, stepper := none, freeze := false }
      ∧ t.recorder = s.recorder ∧ t.runParams = s.runParams ∧ t.now = s.now

/-! ### The Event Store's requests -/

/-- ADD, in PLACE and RIPPLE mode, with labels and with marks: where its positions can be formed and no test of R47 fails,
the lowest free slot takes the new event, nudged, with the counter's number; the events of the ripple are moved, the others
stand; the list is in order; the counter rises by one, or the list is renumbered when it held 4,294,967,295 (R32, R35 to R37,
R46, R51, R54, R59). The reply begins with the handle and the insertion number as they stand then; that after a renumbering this
is the ordinal, and not n − 1, is the model's reading (log entry 47). -/
def Obligations.AddWritesNewEvent : Prop :=
  ∀ (s : State) (q : RequestMessage) (rest : List RequestMessage) (mode : EditMode) (b : RecordBlock) (p : AddPositions)
    (k : Kind) (ts : TrackSet) (colour : Bool) (h : Nat),
    HeadIs s q rest (.add mode b) → (mode = .place ∨ mode = .ripple) →
      (if b.hasPositions then labelPositions s b else markPositions s b) = .ok p →
      kindOf? b.kind = some k → tracksOf? b.tracks = some ts → flagOf? b.colour = some colour →
      b.cues.all (fun c => (cueOf? c).isSome) = true → lowestFree s = some h →
    let r := nudged s (newRecord b k ts colour p)
    let c : Change := ⟨none, some r, addRipple s mode (newRecord b k ts colour p)⟩
    changeTests s true c = none →
    ∃ t data, exec .add s = .next t
      ∧ Replied s t q rest
          (if p.advanced || (nudgesOf s (newRecord b k ts colour p)).any (fun n => 0 < n) || (reportedShift s c).2
            then .adjusted else .ok) data
      ∧ (s.store.counter + 1 < 4294967296 →
          t.store.counter = s.store.counter + 1 ∧ Ordered s t.store.events
            ∧ t.store.events.Perm
                (⟨h, s.store.counter, .opened, ⟨false, false⟩, r⟩ :: s.store.events.map (movedEvent s c))
            ∧ t.run = s.run)
      ∧ (4294967296 ≤ s.store.counter + 1 →
          ∃ events : List Event, Ordered s events
            ∧ events.Perm (⟨h, s.store.counter, .opened, ⟨false, false⟩, r⟩ :: s.store.events.map (movedEvent s c))
            ∧ Renumbered s t events)
      ∧ (∃ n more, data = u16 h ++ u32 n ++ more ∧ (⟨h, n, .opened, ⟨false, false⟩, r⟩ : Event) ∈ t.store.events)
      ∧ t = { s with store := t.store, run := { s.run with cursor := t.run.cursor }, console := t.console }
      ∧ t.console.notices = s.console.notices

/-- TRIM IN, SLIP, TRIM TRANSITION, SET SPLIT and MOVE of a live event that is not RUNNING, where no test of R47 fails: the
target takes the record the request forms, nudged, and is demoted when PERFORMED; nothing else changes (R46, R49, R50, R60,
R63 to R66). That SLIP names source 1 by the byte 1 and source 2 by the byte 2 is the model's reading (log entry 24). -/
def Obligations.ChangeRequestsRewriteTarget : Prop :=
  ∀ (s : State) (q : RequestMessage) (rest : List RequestMessage) (e : Event) (r : Record) (h : Nat),
    findEvent s h = some e → e.state ≠ .running →
    changeTests s true ⟨some e, some (nudged s r), none⟩ = none →
    let done := fun c : Instr => ∃ t res data, exec c s = .next t ∧ res.served = true ∧ Replied s t q rest res data
      ∧ TargetRewritten s t e (nudged s r) ⟨some e, some (nudged s r), none⟩
    (∀ mode d, (mode = .noMode ∨ mode = .place) → HeadIs s q rest (.trimIn mode h d) →
        r = { e.record with
              recordIn := wrap (dayRec s) ((e.record.recordIn : Int) + d)
              duration := ((e.record.duration : Int) - d).toNat
              source1 := moveSource s d e.record.source1, source2 := e.record.source2.map (moveSource s d) } →
        done .trimIn)
      ∧ (∀ d, HeadIs s q rest (.slip .noMode h 1 d) →
        r = { e.record with source1 := moveSource s d e.record.source1 } → done .slip)
      ∧ (∀ d x, HeadIs s q rest (.slip .noMode h 2 d) → e.record.source2 = some x →
        r = { e.record with source2 := some (moveSource s d x) } → done .slip)
      ∧ (∀ d n, HeadIs s q rest (.trimTransition h d) → e.record.transition = some n →
        r = { e.record with transition := some ((n : Int) + d).toNat } → done .trimTransition)
      ∧ (∀ x, HeadIs s q rest (.setSplit h x) →
        r = { e.record with split := if x = 0 then none else some x } → done .setSplit)
      ∧ (∀ mode l p advanced, (mode = .noMode ∨ mode = .place) → HeadIs s q rest (.move mode h l) →
        consoleLabel (timelineMode s) l = some (p, advanced) → r = { e.record with recordIn := p } → done .move)

/-- TRIM OUT, with and without RIPPLE, of a live event that is not RUNNING, where no test of R47 fails: the target's duration
becomes its duration + δ; a RIPPLE moves the events that start at or beyond its end offset by the ripple shift; the reply to a
RIPPLE carries the shift and the number of events moved (R46, R48, R54, R61, R62). -/
def Obligations.TrimOutMovesRecordOut : Prop :=
  ∀ (s : State) (q : RequestMessage) (rest : List RequestMessage) (mode : EditMode) (e : Event) (h : Nat) (d : Int),
    mode ≠ .leaveGap → HeadIs s q rest (.trimOut mode h d) → findEvent s h = some e → e.state ≠ .running →
    let r := nudged s { e.record with duration := ((e.record.duration : Int) + d).toNat }
    let c : Change := ⟨some e, some r, if mode = .ripple then some ⟨endOffset s e.record, d⟩ else none⟩
    changeTests s true c = none →
    ∃ t res data, exec .trimOut s = .next t ∧ res.served = true
      ∧ Replied s t q rest res
          (data ++ if mode = .ripple then i32 (reportedShift s c).1 ++ u16 (rippleMoves s c).1.length else [])
      ∧ TargetRewritten s t e r c

/-- DELETE of a live event that is not RUNNING, in LEAVE GAP (or without a mode) and in RIPPLE mode, where no test of R47
fails: the event is gone and its slot free; a RIPPLE moves the later events by the ripple shift; when the list is then empty
the counter is 0 and the cursor's insertion number absent; the reply carries the handle and the offsets the event had (R35,
R37, R48, R54, R67, R68). CLEAR LIST is refused BUSY unless the run is IDLE; then it removes every event, sets the counter to 0
and the cursor's insertion number absent, and answers with the number removed; nothing else changes (R44). -/
def Obligations.DeleteAndClearListRemoveEvents : Prop :=
  (∀ (s : State) (q : RequestMessage) (rest : List RequestMessage) (mode : EditMode) (e : Event) (h : Nat),
    mode ≠ .place → HeadIs s q rest (.delete mode h) → findEvent s h = some e → e.state ≠ .running →
    let c : Change :=
      ⟨some e, none, if mode = .ripple then some ⟨endOffset s e.record, -(e.record.extent : Int)⟩ else none⟩
    changeTests s true c = none →
    ∃ t res, exec .delete s = .next t ∧ res.served = true
      ∧ Replied s t q rest res
          (u16 e.handle ++ u32 (startOffset s e.record) ++ u32 (endOffset s e.record)
            ++ if mode = .ripple then i32 (reportedShift s c).1 ++ u16 (rippleMoves s c).1.length else [])
      ∧ t.store.events.Perm ((bystanders s c).map (movedEvent s c)) ∧ Ordered s t.store.events
      ∧ findEvent t h = none
      ∧ (t.store.events = [] → t.store.counter = 0 ∧ t.run.cursor = { s.run.cursor with insertion := none })
      ∧ (t.store.events ≠ [] → t.store.counter = s.store.counter ∧ t.run.cursor = s.run.cursor)
      ∧ t = { s with store := t.store, run := { s.run with cursor := t.run.cursor }, console := t.console }
      ∧ t.console.notices = s.console.notices)
  ∧ ∀ (s : State) (q : RequestMessage) (rest : List RequestMessage), HeadIs s q rest .clearList →
    (s.run.phase ≠ .idle → Refuses .clearList s q rest .busy)
      ∧ (s.run.phase = .idle →
        exec .clearList s = .next
          (replied q rest .ok (u16 s.store.events.length)
            { s with
              store := { events := [], counter := 0 }
              run := { s.run with cursor := { s.run.cursor with insertion := none } } }))

/-- READ EVENT, READ ORDINAL, COUNT, NEXT and PREVIOUS answer from the list as it stands and change nothing: the record of
the event named or of the event at the place; the live events and the free slots; the handle, start offset and ordinal of the
neighbour; NO_EVENT for a handle or place that holds no event (R38 to R40). A NONE answer begins with the handle NONE; the bytes
that follow it are the model's layout (log entry 33) and are left open here. -/
def Obligations.LookupsReadTheList : Prop :=
  ∀ (s : State) (q : RequestMessage) (rest : List RequestMessage),
    (∀ h e, HeadIs s q rest (.readEvent h) → findEvent s h = some e →
        exec .readEvent s = .next (replied q rest .ok (eventData s e (ordinalOf s h)) s))
      ∧ (∀ h, HeadIs s q rest (.readEvent h) → findEvent s h = none → Refuses .readEvent s q rest .noEvent)
      ∧ (∀ n (hn : n < s.store.events.length), HeadIs s q rest (.readOrdinal n) →
        exec .readOrdinal s = .next (replied q rest .ok (eventData s s.store.events[n] (some n)) s))
      ∧ (∀ n, HeadIs s q rest (.readOrdinal n) → s.store.events.length ≤ n → Refuses .readOrdinal s q rest .noEvent)
      ∧ (HeadIs s q rest .count →
        exec .count s = .next
          (replied q rest .ok (u16 s.store.events.length ++ u16 (512 - s.store.events.length)) s))
      ∧ (∀ h n (hn : n + 1 < s.store.events.length), h ≠ 65535 → HeadIs s q rest (.next h) → ordinalOf s h = some n →
        exec .next s = .next
          (replied q rest .ok
            (u16 s.store.events[n + 1].handle ++ u32 (startOffset s s.store.events[n + 1].record) ++ u16 (n + 1)) s))
      ∧ (∀ (hn : 0 < s.store.events.length), HeadIs s q rest (.next 65535) →
        exec .next s = .next
          (replied q rest .ok
            (u16 s.store.events[0].handle ++ u32 (startOffset s s.store.events[0].record) ++ u16 0) s))
      ∧ (∀ h n (hn : n < s.store.events.length), h ≠ 65535 → HeadIs s q rest (.previous h) →
        ordinalOf s h = some (n + 1) →
        exec .previous s = .next
          (replied q rest .ok
            (u16 s.store.events[n].handle ++ u32 (startOffset s s.store.events[n].record) ++ u16 n) s))
      ∧ (∀ n (hn : s.store.events.length = n + 1), HeadIs s q rest (.previous 65535) →
        exec .previous s = .next
          (replied q rest .ok
            (u16 s.store.events[n].handle ++ u32 (startOffset s s.store.events[n].record) ++ u16 n) s))
      ∧ (∀ h, (h = 65535 ∧ s.store.events = []) ∨ (h ≠ 65535 ∧ ordinalOf s h = some (s.store.events.length - 1)) →
        HeadIs s q rest (.next h) → ∃ data, exec .next s = .next (replied q rest .ok (u16 65535 ++ data) s))
      ∧ (∀ h, (h = 65535 ∧ s.store.events = []) ∨ (h ≠ 65535 ∧ ordinalOf s h = some 0) →
        HeadIs s q rest (.previous h) → ∃ data, exec .previous s = .next (replied q rest .ok (u16 65535 ++ data) s))
      ∧ (∀ h, h ≠ 65535 → HeadIs s q rest (.next h) → ordinalOf s h = none → Refuses .next s q rest .noEvent)
      ∧ (∀ h, h ≠ 65535 → HeadIs s q rest (.previous h) → ordinalOf s h = none → Refuses .previous s q rest .noEvent)

/-- FIND AT and MATCH FRAME answer for the event that covers the position on the track, and change nothing: its handle,
ordinal and state; or its handle, j, the to-source position, and the from-source position while j is less than D (R41, R42).
An unknown track is refused BAD_REQUEST; a position that no event covers is answered with the handle NONE first. A dropped label
makes the result ADJUSTED. That the label used then ends the data, and that j is sent as a field count of four bytes, is the
model's reading (log entry 29); the bytes that stand for an absent from-source position are its choice (log entry 33). -/
def Obligations.PositionLookupsFindCoveringEvent : Prop :=
  ∀ (s : State) (q : RequestMessage) (rest : List RequestMessage) (l : Label) (n p : Nat) (advanced : Bool),
    consoleLabel (timelineMode s) l = some (p, advanced) →
    let answer := fun data : List Byte =>
      replied q rest (if advanced then .adjusted else .ok)
        (data ++ if advanced then labelBytes (labelOf (timelineMode s) p) else []) s
    (trackOf? n = none →
        (HeadIs s q rest (.findAt l n) → Refuses .findAt s q rest .badRequest)
          ∧ (HeadIs s q rest (.matchFrame l n) → Refuses .matchFrame s q rest .badRequest))
      ∧ (∀ tr, trackOf? n = some tr → coveringEvent s tr p = none →
        (HeadIs s q rest (.findAt l n) → ∃ data, exec .findAt s = .next (answer (u16 65535 ++ data)))
          ∧ (HeadIs s q rest (.matchFrame l n) → ∃ data, exec .matchFrame s = .next (answer (u16 65535 ++ data))))
      ∧ ∀ tr e, trackOf? n = some tr → coveringEvent s tr p = some e →
        (HeadIs s q rest (.findAt l n) →
          exec .findAt s = .next (answer (u16 e.handle ++ countOrNone (ordinalOf s e.handle) ++ u8 e.state.code)))
        ∧ (HeadIs s q rest (.matchFrame l n) →
          let j := foldDiff (dayRec s) p e.record.recordIn
          let side := fun (x : Source) (k : Int) =>
            u8 x.machine.toNat
              ++ labelBytes (labelOf (modeOf s x.machine) (wrap (dayOf s x.machine) ((x.sourceIn : Int) + k)))
          let toSource := side e.record.source1 (j * ((e.record.rate.getD 256 : Nat) : Int) / 256)
          (∀ x, e.record.source2 = some x → j < ((e.record.transition.getD 0 : Nat) : Int) →
            exec .matchFrame s = .next (answer (u16 e.handle ++ i32 j ++ toSource ++ side x j)))
          ∧ (e.record.source2 = none ∨ ((e.record.transition.getD 0 : Nat) : Int) ≤ j →
            exec .matchFrame s = .next
              (answer (u16 e.handle ++ i32 j ++ toSource ++ machineOrNone none ++ labelOrAbsent none))))

/-! ### The Machine Controller's requests -/

/-- CONFIGURE MACHINE of a machine that is not configured makes it: ONLINE, FREE, unclaimed, without estimate and marks, its
parameters those carried over the standard's defaults, its queue empty (R90), but that while the STOP input is asserted the
queue holds the STOP that R117 has placed at once; of a configured machine without a change of label mode it changes the
parameters alone; with a change, where the list and the run do not need the machine, it also clears the estimate, the marks and
the CTL anchor, cancels its follows, and sets the origin to 0 for the recorder; a configured machine that nothing needs is
unconfigured by the other action (R90, R95, R96). A machine that an event references or the run has claimed, and the designated
recorder when it would be unconfigured, are refused IN_USE; a change of the recorder's label mode while the run is not IDLE is
refused BUSY. That the parameters of a request to unconfigure (action 0) are tested too, and refused BAD_REQUEST or RANGE, as
those of a request to configure are, is the model's reading (log entry 27). -/
def Obligations.ConfigureMachineWritesRecord : Prop :=
  ∀ (s : State) (q : RequestMessage) (rest : List RequestMessage) (m : MachineId) (action : Nat) (p : ConfigureParams),
    HeadIs s q rest (.configureMachine m action p) →
    (1 < action ∨ modeKnown p = false → Refuses .configureMachine s q rest .badRequest)
      ∧ (action ≤ 1 → modeKnown p = true → paramsInRange s.timeline.standard p = false →
        Refuses .configureMachine s q rest .range)
      ∧ (action ≤ 1 → modeKnown p = true → paramsInRange s.timeline.standard p = true →
        (action = 1 → (s.machine m).configured = false →
          ∃ t, exec .configureMachine s = .next t ∧ Replied s t q rest .ok (machineData t m)
            ∧ ((t.machine m).configured = true ∧ (t.machine m).control = .free ∧ (t.machine m).claimed = false
              ∧ (t.machine m).leader = .noLeader ∧ (t.machine m).position = none ∧ (t.machine m).quality = .stale
              ∧ (t.machine m).markIn = none ∧ (t.machine m).markOut = none
              ∧ (t.machine m).params = mergeParams (defaultParams s.timeline.standard) p)
            ∧ (t.link m = .online ∧ (t.port m).errors = 0 ∧ (t.port m).exchange = none ∧ (t.port m).ctlAnchor = none
              ∧ (t.port m).ctlCounter = 0 ∧ (t.port m).ctlTally = 0
              ∧ (t.port m).queue = if s.stopAsserted then [⟨.stop, none⟩] else [])
            ∧ OthersKept s t m ∧ Noticed t (.machineState m .online .free false .noLeader none .stale)
            ∧ t = { s with ports := t.ports, machines := t.machines, console := t.console })
        ∧ (action = 1 → (s.machine m).configured = true →
          (mergeParams (s.machine m).params p).mode = (s.machine m).params.mode →
          ∃ t, exec .configureMachine s = .next t ∧ Replied s t q rest .ok (machineData t m)
            ∧ t.machine m = { s.machine m with params := mergeParams (s.machine m).params p }
            ∧ t.port m = (if (mergeParams (s.machine m).params p).ctlEnable then s.port m
                else { s.port m with ctlCounter := 0, ctlTally := 0 })
            ∧ OthersKept s t m ∧ t.console.notices = s.console.notices
            ∧ t = { s with ports := t.ports, machines := t.machines, console := t.console })
        ∧ (action = 1 → (s.machine m).configured = true →
          (mergeParams (s.machine m).params p).mode ≠ (s.machine m).params.mode → (s.machine m).claimed = false →
          anyReferences s m = false → (s.recorder = some m → s.run.phase = .idle) →
          ∃ t, exec .configureMachine s = .next t ∧ Replied s t q rest .ok (machineData t m)
            ∧ (t.machine m).params = mergeParams (s.machine m).params p ∧ (t.machine m).configured = true
            ∧ (t.machine m).position = none ∧ (t.machine m).quality = .stale ∧ (t.machine m).markIn = none
            ∧ (t.machine m).markOut = none ∧ (t.machine m).following = false ∧ (t.machine m).control ≠ .locating
            ∧ (t.port m).ctlAnchor = none ∧ (t.port m).ctlCounter = 0 ∧ (t.port m).ctlTally = 0
            ∧ (∀ f off, (t.machine f).leader ≠ .machine m off)
            ∧ t.timeline.origin = (if s.recorder = some m then 0 else s.timeline.origin)
            ∧ t.run = s.run ∧ t.store = s.store ∧ t.recorder = s.recorder ∧ t.effects = s.effects ∧ t.cues = s.cues)
        ∧ (action = 0 → (s.machine m).configured = true → anyReferences s m = false → (s.machine m).claimed = false →
          s.recorder ≠ some m →
          ∃ t, exec .configureMachine s = .next t ∧ Replied s t q rest .ok (machineData t m)
            ∧ (t.machine m).configured = false ∧ (t.machine m).control = .free ∧ (t.machine m).leader = .noLeader
            ∧ (t.machine m).position = none ∧ (t.machine m).markIn = none ∧ (t.machine m).markOut = none
            ∧ t.link m = .absent ∧ (t.port m).queue = [] ∧ (t.port m).exchange = none
            ∧ (∀ f off, (t.machine f).leader ≠ .machine m off)
            ∧ t = { s with ports := t.ports, machines := t.machines, console := t.console })
        ∧ (action = 0 → (s.machine m).configured = false → exec .configureMachine s = .next
            (replied q rest .ok (machineData s m) s))
        ∧ ((s.machine m).configured = true →
          anyReferences s m = true ∨ (s.machine m).claimed = true →
          action = 0 ∨ (mergeParams (s.machine m).params p).mode ≠ (s.machine m).params.mode →
          Refuses .configureMachine s q rest .inUse)
        ∧ ((s.machine m).configured = true → action = 0 → s.recorder = some m →
          Refuses .configureMachine s q rest .inUse)
        ∧ (action = 1 → (s.machine m).configured = true →
          (mergeParams (s.machine m).params p).mode ≠ (s.machine m).params.mode → (s.machine m).claimed = false →
          anyReferences s m = false → s.recorder = some m → s.run.phase ≠ .idle →
          Refuses .configureMachine s q rest .busy))

/-- STOP, PLAY, SHUTTLE and LOCATE that pass the tests of R100: the request is placed in the port's queue, in the place of the
motion request there, if any; STOP, PLAY and SHUTTLE leave the machine FREE, a locate in progress ended, with the last speed 0,
256 or the speed placed, which is held within the shuttle limit (ADJUSTED); LOCATE leaves it LOCATING on the target (R84, R101,
R102). MACHINE_STATE is raised when the control state changed. -/
def Obligations.TransportRequestsPlaceMotion : Prop :=
  ∀ (s : State) (q : RequestMessage) (rest : List RequestMessage) (m : MachineId),
    (s.machine m).configured = true → (s.machine m).claimed = false → (s.machine m).following = false →
    TakesMotion s m →
    let done := fun (c : Instr) (d : DeckRequest) (result : Result) (data : List Byte) (r : MachineRec) =>
      ∃ t, exec c s = .next t ∧ Replied s t q rest result data ∧ (t.port m).queue = motionQueue (s.port m).queue d
        ∧ t.machine m = r ∧ OthersKept s t m
        ∧ (r.control ≠ (s.machine m).control → Noticed t (machineStateNotice t m))
        ∧ (r.control = (s.machine m).control → t.console.notices = s.console.notices)
        ∧ t = { s with ports := t.ports, machines := t.machines, console := t.console }
    let moved := fun v : Int =>
      { s.machine m with inWindow := 0, outWindow := 0, lastSpeed := some v, control := .free, locate := none }
    let limit : Int := (s.machine m).params.shuttleLimit
    (HeadIs s q rest (.stop m) → done .stop .stop .ok [] (moved 0))
      ∧ (s.stopAsserted = false →
        (HeadIs s q rest (.play m) → done .play .play .ok [] (moved 256))
          ∧ (∀ v, -limit ≤ v → v ≤ limit → HeadIs s q rest (.shuttle m v) →
              done .shuttle (.shuttle v) .ok [] (moved v))
          ∧ (∀ v, limit < v → HeadIs s q rest (.shuttle m v) →
              done .shuttle (.shuttle limit) .adjusted (i16 limit) (moved limit))
          ∧ (∀ v, v < -limit → HeadIs s q rest (.shuttle m v) →
              done .shuttle (.shuttle (-limit)) .adjusted (i16 (-limit)) (moved (-limit)))
          ∧ (∀ l p advanced, HeadIs s q rest (.locate m l) → consoleLabel (modeOf s m) l = some (p, advanced) →
              done .locate (.locate p) (if advanced then .adjusted else .accepted)
                (if advanced then labelBytes (labelOf (modeOf s m) p) else [])
                { s.machine m with
                  inWindow := 0, outWindow := 0, control := .locating, locate := some ⟨p, .console, false, 0⟩
                  lastSpeed := none }))

/-- STOP, PLAY, SHUTTLE and LOCATE are refused in the order of R100: NOT_CONFIGURED, CLAIMED, FOLLOWING, the link state,
STOPPED (but for STOP), QUEUE_FULL; the record is unchanged. -/
def Obligations.TransportRefusalsInOrder : Prop :=
  ∀ (s : State) (q : RequestMessage) (rest : List RequestMessage) (m : MachineId) (result : Result) (isStop : Bool),
    (((s.machine m).configured = false ∧ result = .notConfigured)
      ∨ ((s.machine m).configured = true
        ∧ (((s.machine m).claimed = true ∧ result = .claimed)
          ∨ ((s.machine m).claimed = false
            ∧ (((s.machine m).following = true ∧ result = .following)
              ∨ ((s.machine m).following = false
                ∧ ((s.link m = .offline ∧ result = .offline) ∨ (s.link m = .localMode ∧ result = .localMode)
                  ∨ (s.link m = .online
                    ∧ ((s.stopAsserted = true ∧ isStop = false ∧ result = .stopped)
                      ∨ ((s.stopAsserted = false ∨ isStop = true) ∧ ¬ TakesMotion s m ∧ result = .queueFull)))))))))) →
    (isStop = true → HeadIs s q rest (.stop m) → Refuses .stop s q rest result)
      ∧ (isStop = false →
        (HeadIs s q rest (.play m) → Refuses .play s q rest result)
          ∧ (∀ v, HeadIs s q rest (.shuttle m v) → Refuses .shuttle s q rest result)
          ∧ (∀ l, labelInRange (modeOf s m) l = true → HeadIs s q rest (.locate m l) →
              Refuses .locate s q rest result))

/-- FOLLOW that passes R105: the follower is CHASING with the leader and offset, its lock counts 0, a locate ended, and no
request is placed. It is refused in the order NOT_CONFIGURED for either machine, SAME_MACHINE, RANGE for an offset outside half
the follower's day, CLAIMED, CYCLE for a follow that would close a loop of leaders, the link state, STOPPED. UNFOLLOW removes the
leader, FREE and lock counts 0, and places STOP when the port holds it; with no leader it changes nothing; it is refused
NOT_CONFIGURED, then CLAIMED (R105 to R107). That the last speed stays when the port does not hold the STOP, and that UNFOLLOW's
refusals come in this order, is the model's reading (log entries 14 and 50). -/
def Obligations.FollowAndUnfollowSetLeader : Prop :=
  ∀ (s : State) (q : RequestMessage) (rest : List RequestMessage),
    (∀ f l off, HeadIs s q rest (.follow f l off) →
      let day : Int := ((dayOf s f : Nat) : Int)
      ((s.machine f).configured = false ∨ (s.machine l).configured = false → Refuses .follow s q rest .notConfigured)
        ∧ ((s.machine f).configured = true → (s.machine l).configured = true →
          (f = l → Refuses .follow s q rest .sameMachine)
            ∧ (f ≠ l → 2 * off ≤ -day ∨ day < 2 * off → Refuses .follow s q rest .range)
            ∧ (f ≠ l → -day < 2 * off → 2 * off ≤ day →
              ((s.machine f).claimed = true → Refuses .follow s q rest .claimed)
                ∧ ((s.machine f).claimed = false → chainReaches s f 8 l = true → Refuses .follow s q rest .cycle)
                ∧ ((s.machine f).claimed = false → chainReaches s f 8 l = false →
                  (s.link f = .offline → Refuses .follow s q rest .offline)
                    ∧ (s.link f = .localMode → Refuses .follow s q rest .localMode)
                    ∧ (s.link f = .online → s.stopAsserted = true → Refuses .follow s q rest .stopped)
                    ∧ (s.link f = .online → s.stopAsserted = false →
                      ∃ t, exec .follow s = .next t ∧ Replied s t q rest .ok []
                        ∧ t.machine f =
                            { s.machine f with
                              inWindow := 0, outWindow := 0, leader := .machine l off, control := .chasing, locate := none }
                        ∧ OthersKept s t f ∧ t.ports = s.ports
                        ∧ t = { s with machines := t.machines, console := t.console })))))
      ∧ (∀ m, HeadIs s q rest (.unfollow m) → (s.machine m).configured = false →
          Refuses .unfollow s q rest .notConfigured)
      ∧ ∀ m, HeadIs s q rest (.unfollow m) → (s.machine m).configured = true →
        ((s.machine m).claimed = true → Refuses .unfollow s q rest .claimed)
          ∧ ((s.machine m).claimed = false → (s.machine m).following = false →
            exec .unfollow s = .next (replied q rest .ok [] s))
          ∧ ((s.machine m).claimed = false → (s.machine m).following = true →
            ∃ t, exec .unfollow s = .next t ∧ Replied s t q rest .ok []
              ∧ (t.machine m).leader = .noLeader ∧ (t.machine m).control = .free ∧ (t.machine m).inWindow = 0
              ∧ (t.machine m).outWindow = 0
              ∧ (TakesMotion s m → (t.port m).queue = motionQueue (s.port m).queue .stop
                  ∧ (t.machine m).lastSpeed = some 0)
              ∧ (¬ TakesMotion s m → t.port m = s.port m ∧ (t.machine m).lastSpeed = (s.machine m).lastSpeed)
              ∧ OthersKept s t m ∧ t = { s with ports := t.ports, machines := t.machines, console := t.console })

/-- MARK IN and MARK OUT store the estimate of a configured machine whose quality is TC or CTL as its mark, and answer with its
label and quality; a STALE estimate is refused NO_POSITION; CLEAR MARKS removes both marks; an unconfigured machine is refused
NOT_CONFIGURED, and that this comes before NO_POSITION is the model's reading (log entry 50); nothing else changes (R115). -/
def Obligations.MarksStoreEstimate : Prop :=
  ∀ (s : State) (q : RequestMessage) (rest : List RequestMessage) (m : MachineId),
    ((s.machine m).configured = false →
        (HeadIs s q rest (.markIn m) → Refuses .markIn s q rest .notConfigured)
          ∧ (HeadIs s q rest (.markOut m) → Refuses .markOut s q rest .notConfigured)
          ∧ (HeadIs s q rest (.clearMarks m) → Refuses .clearMarks s q rest .notConfigured))
      ∧ ((s.machine m).configured = true →
        ((s.machine m).quality = .stale →
          (HeadIs s q rest (.markIn m) → Refuses .markIn s q rest .noPosition)
            ∧ (HeadIs s q rest (.markOut m) → Refuses .markOut s q rest .noPosition))
        ∧ (∀ p, (s.machine m).quality ≠ .stale → (s.machine m).position = some p →
          let data := labelBytes (labelOf (modeOf s m) p) ++ u8 (s.machine m).quality.code
          (HeadIs s q rest (.markIn m) →
            exec .markIn s = .next
              (replied q rest .ok data (s.setMachine m { s.machine m with markIn := some p })))
          ∧ (HeadIs s q rest (.markOut m) →
            exec .markOut s = .next
              (replied q rest .ok data (s.setMachine m { s.machine m with markOut := some p }))))
        ∧ (HeadIs s q rest (.clearMarks m) →
          exec .clearMarks s = .next
            (replied q rest .ok [] (s.setMachine m { s.machine m with markIn := none, markOut := none }))))

/-! ### The machine ports -/

/-- How a port holds requests (R71, R83 to R85): a motion request takes the place of the one queued, or joins the tail, and is
refused QUEUE_FULL only when none is queued; an edit request joins the tail or is refused QUEUE_FULL; an EDIT OFF placed ahead
stands directly behind the request on the line, every other EDIT ON withdrawn; a port that is not ONLINE refuses by its link
state. -/
def Obligations.PortHoldsRequestsByKind : Prop :=
  ∀ p : Port,
    (p.link = .online →
      (∀ r a x z, p.queue = a ++ x :: z → x.request.isMotion = true → (∀ y ∈ a, y.request.isMotion = false) →
          ∃ p', p.placeMotion r = .ok p' ∧ p'.queue = a ++ ⟨r, none⟩ :: z
            ∧ p' = { p with queue := p'.queue, exchange := p'.exchange }
            ∧ p'.exchange.map Exchange.sent = p.exchange.map Exchange.sent
            ∧ (a ≠ [] → p'.exchange = p.exchange) ∧ (a = [] → p'.headOnLine = false))
        ∧ (∀ r, (∀ y ∈ p.queue, y.request.isMotion = false) →
          (p.queue.length < 4 → p.placeMotion r = .ok { p with queue := p.queue ++ [⟨r, none⟩] })
            ∧ (4 ≤ p.queue.length → p.placeMotion r = .error .queueFull))
        ∧ (∀ e, (p.queue.length < 4 → p.placeEdit e = .ok { p with queue := p.queue ++ [e] })
            ∧ (4 ≤ p.queue.length → p.placeEdit e = .error .queueFull))
        ∧ (∀ e line behind, p.queue = line ++ behind → line.length = (if p.headOnLine then 1 else 0) →
          let kept := behind.filter (fun y => !y.request.isEditOn)
          (line.length + kept.length < 4 → p.placeAhead e = .ok ({ p with queue := line ++ e :: kept }, none))
            ∧ ∀ a x z, 4 ≤ line.length + kept.length → kept = a ++ x :: z → x.request.isEditOff = false →
                (∀ y ∈ z, y.request.isEditOff = true) →
                p.placeAhead e = .ok ({ p with queue := line ++ e :: (a ++ z) }, some x)))
      ∧ ((p.link = .absent →
          ∀ r e, p.placeMotion r = .error .notConfigured ∧ p.placeEdit e = .error .notConfigured
            ∧ p.placeAhead e = .error .notConfigured)
        ∧ (p.link = .offline →
          ∀ r e, p.placeMotion r = .error .offline ∧ p.placeEdit e = .error .offline ∧ p.placeAhead e = .error .offline)
        ∧ (p.link = .localMode →
          ∀ r e, p.placeMotion r = .error .localMode ∧ p.placeEdit e = .error .localMode
            ∧ p.placeAhead e = .error .localMode))

/-- EXCHANGE_TIMEOUT, CHECK_FAILURE and UNSOLICITED_CHARACTER at a port that is ONLINE or LOCAL and stays below its fault
limit: the error count rises by one; after a failure an EDIT ON on the line is removed (in EDITING and POSTROLL of its own
event the run holds with EDIT_COMMAND_FAILED), any other request stays to be sent again; a TIMEOUT is followed at once by the
field's new exchange; a second unsolicited character of a field is discarded without count (R75, R76, R80). -/
def Obligations.ExchangeFaultsAreCounted : Prop :=
  ∀ (s : State) (m : MachineId) (x : Exchange), (s.link m = .online ∨ s.link m = .localMode) →
    (s.port m).exchange = some x → (s.port m).errors + 1 < (s.machine m).params.faultLimit →
    let p := { s.port m with errors := (s.port m).errors + 1 }
    let w := { s with waiting := s.waiting.erase (.port m) }
    let editOnWaits := x.onLine = true ∧ ∃ e rest, (s.port m).queue = e :: rest ∧ e.request.isEditOn = true
    let runMinds := fun e : QueuedRequest =>
      (s.run.phase = .editing ∨ s.run.phase = .postroll) ∧ e.event = s.run.current
    (s.waiting.contains (.port m) = true → x.waiting = true →
        (¬ editOnWaits →
          exec (.exchangeTimeout m) s = .next (w.setPort m (p.openExchange (modeOf s m) (fieldCount s))))
          ∧ (∀ e rest, x.onLine = true → (s.port m).queue = e :: rest → e.request.isEditOn = true →
            (¬ runMinds e →
              exec (.exchangeTimeout m) s = .next
                (w.setPort m ({ p with queue := rest }.openExchange (modeOf s m) (fieldCount s))))
              ∧ (runMinds e →
                ∃ t, exec (.exchangeTimeout m) s = .next t ∧ t.run.phase = .held
                  ∧ t.run.holdCause = some .editCommandFailed ∧ (t.port m).errors = (s.port m).errors + 1)))
      ∧ (∀ chars faulty, checkFails s m chars faulty = true →
        (¬ editOnWaits →
          exec (.checkFailure m chars faulty) s = .next
            (s.setPort m { p with exchange := some { x with onLine := false, progress := .failed } }))
          ∧ (∀ e rest, x.onLine = true → (s.port m).queue = e :: rest → e.request.isEditOn = true →
            (¬ runMinds e →
              exec (.checkFailure m chars faulty) s = .next
                (s.setPort m
                  { p with queue := rest, exchange := some { x with onLine := false, progress := .failed } }))
              ∧ (runMinds e →
                ∃ t, exec (.checkFailure m chars faulty) s = .next t ∧ t.run.phase = .held
                  ∧ t.run.holdCause = some .editCommandFailed ∧ (t.port m).errors = (s.port m).errors + 1)))
      ∧ (x.progress = .completed false →
        exec (.unsolicitedCharacter m) s = .next
          (s.setPort m { p with exchange := some { x with progress := .completed true } }))
      ∧ (x.progress = .completed true → exec (.unsolicitedCharacter m) s = .next s)
      ∧ (∀ rx c, x.progress = .listening rx → classify rx = .incomplete → checkFails s m [c] true = true)

/-- PORT_OFFLINE: an error that brings the count to the fault limit takes an ONLINE or LOCAL port OFFLINE: the queue is flushed,
the recovery count is 32, the count keeps its value, a machine LOCATING or PARKED goes FREE, and for a claimed machine the run
in CUEING, ROLLING or EDITING is held; in POSTROLL the fault is deferred, unless the failed exchange carried an EDIT ON of the
current event, which holds the run at once with EDIT_COMMAND_FAILED; a TIMEOUT's port opens no exchange (R75, R80, R81, R94,
R132). That the EDIT ON is reported before the link state is the model's reading (log entry 9). -/
def Obligations.FaultLimitTakesPortOffline : Prop :=
  ∀ (s : State) (m : MachineId) (x : Exchange) (cause : PortError), (s.link m = .online ∨ s.link m = .localMode) →
    (s.port m).exchange = some x → (s.machine m).params.faultLimit ≤ (s.port m).errors + 1 →
    ((cause = .timeout ∧ s.waiting.contains (.port m) = true ∧ x.waiting = true)
      ∨ (∃ chars faulty, cause = .check chars faulty ∧ checkFails s m chars faulty = true)
      ∨ (cause = .unsolicited ∧ x.progress = .completed false)) →
    ∃ t, exec (.portOffline m cause) s = .next t
      ∧ t.link m = .offline ∧ (t.port m).queue = [] ∧ (t.port m).recovery = 32
      ∧ (t.port m).errors = (s.port m).errors + 1 ∧ (cause = .timeout → (t.port m).exchange = none)
      ∧ ((s.machine m).control = .locating ∨ (s.machine m).control = .parked → (t.machine m).control = .free)
      ∧ ((s.machine m).claimed = true → (s.run.phase = .cueing ∨ s.run.phase = .rolling ∨ s.run.phase = .editing) →
          t.run.phase = .held)
      ∧ (let lostEditOn := cause ≠ .unsolicited ∧ x.onLine = true
          ∧ ∃ e rest, (s.port m).queue = e :: rest ∧ e.request.isEditOn = true ∧ e.event = s.run.current
        s.run.phase = .postroll →
          (lostEditOn → t.run.phase = .held ∧ t.run.holdCause = some .editCommandFailed)
            ∧ (¬ lostEditOn → (s.machine m).claimed = true → FaultDeferred s t .machineOffline m)
            ∧ (¬ lostEditOn → (s.machine m).claimed = false → t.run = s.run))
      ∧ (s.run.phase = .idle ∨ s.run.phase = .held →
          OthersKept s t m ∧ t.run = s.run
            ∧ t = { s with ports := t.ports, machines := t.machines, console := t.console, waiting := t.waiting })
      ∧ listOf t = listOf s

/-- STATUS_REPLY: a well-formed STATUS clears the error count and gives the machine its transport mode and parked flag; a valid
label gives the estimate with quality TC and the CTL anchor, and clears the CTL count, any other leaves the estimate as it is;
the request on the line is answered and gone; a LOCAL or OFFLINE port is ONLINE again (R77, R79, R82, R88). For a FREE machine
on an ONLINE port that is all. For a LOCATING machine the parking test is made once the locate is acknowledged, which the answer
to its LOCATE does: TAPE OUT fails it; without the parked flag it goes on; parked within the lock window of the target the
machine is PARKED, with LOCATE_DONE for the console's; any other parked report is a mismatch, at which the LOCATE is placed again,
and the third, or one whose LOCATE finds no room, fails the locate. A failed locate leaves the machine FREE, with LOCATE_FAILED
for the console's, and holds a run in CUEING with CUE_FAIL for the run's (R103, R104, R126). -/
def Obligations.StatusUpdatesMachine : Prop :=
  ∀ (s : State) (m : MachineId) (x : Exchange) (chars : List Byte) (p : StatusPayload), s.link m ≠ .absent →
    (s.port m).exchange = some x → statusOf s m chars = some p →
    ∃ t, exec (.statusReply m chars) s = .next t
      ∧ (t.port m).errors = 0 ∧ t.link m = .online
      ∧ (t.machine m).transport = some p.transport ∧ (t.machine m).parkedFlag = p.parked
      ∧ (∀ n, statusPosition (modeOf s m) p = some n →
          (t.machine m).position = some n ∧ (t.machine m).quality = .tc ∧ (t.port m).ctlAnchor = some n
            ∧ (t.port m).ctlCounter = 0 ∧ (t.port m).ctlTally = 0)
      ∧ (statusPosition (modeOf s m) p = none →
          (t.machine m).position = (s.machine m).position ∧ (t.machine m).quality = (s.machine m).quality
            ∧ (t.port m).ctlAnchor = (s.port m).ctlAnchor ∧ (t.port m).ctlCounter = (s.port m).ctlCounter
            ∧ (t.port m).ctlTally = (s.port m).ctlTally)
      ∧ ((s.machine m).control = .free → s.link m = .online →
          (t.port m).queue = (if x.onLine then (s.port m).queue.drop 1 else (s.port m).queue)
            ∧ (t.port m).exchange = some
                { x with progress := .completed false
                         onLine := if (s.port m).queue = [] then x.onLine else false }
            ∧ OthersKept s t m ∧ (t.machine m).control = .free
            ∧ t = { s with ports := t.ports, machines := t.machines })
      ∧ (∀ l, (s.machine m).control = .locating → (s.machine m).locate = some l →
          let target := machineLabel s m l.target
          let answered : Bool := x.onLine && (s.port m).queue.head?.any (fun y => y.request.isLocate)
          let onTarget := ∃ n, statusPosition (modeOf s m) p = some n
            ∧ (foldDiff (dayOf s m) n l.target).natAbs ≤ (s.machine m).params.lockWindow
          let failed := fun reason : LocateReason =>
            (t.machine m).control = .free ∧ (t.machine m).locate = none
              ∧ (l.owner = .console → Noticed t (.locateFailed m target reason) ∧ t.run = s.run)
              ∧ (l.owner = .run → s.run.phase = .cueing → t.run.phase = .held ∧ t.run.holdCause = some .cueFail)
          (l.acknowledged = false →
              (t.machine m).control = .locating ∧ (t.machine m).locate = some { l with acknowledged := answered }
                ∧ t.run = s.run)
            ∧ (l.acknowledged = true →
              (p.transport = .tapeOut → failed .tapeOut)
                ∧ (p.transport ≠ .tapeOut → p.parked = false →
                  (t.machine m).control = .locating ∧ (t.machine m).locate = some l ∧ t.run = s.run)
                ∧ (p.transport ≠ .tapeOut → p.parked = true → onTarget →
                  (t.machine m).control = .parked ∧ (t.machine m).locate = none ∧ t.run = s.run
                    ∧ (l.owner = .console → ∃ n, statusPosition (modeOf s m) p = some n
                        ∧ Noticed t (.locateDone m target (machineLabel s m n))))
                ∧ (p.transport ≠ .tapeOut → p.parked = true → ¬ onTarget →
                  (l.mismatches < 2 → TakesMotion s m → (s.port m).lineHeld →
                      (t.machine m).control = .locating ∧ t.run = s.run
                        ∧ (t.machine m).locate = some { l with acknowledged := false, mismatches := l.mismatches + 1 }
                        ∧ (x.onLine = false → (t.port m).queue = motionQueue (s.port m).queue (.locate l.target)))
                    ∧ (2 ≤ l.mismatches ∨ ¬ TakesMotion s m → failed .mismatch))))
      ∧ listOf t = listOf s

/-- NAK_REFUSED and NAK_LOCAL complete the exchange and clear the error count. REFUSED at an ONLINE port leaves an EDIT OFF to
be sent again and removes any other request on the line. A refused LOCATE ends its locate: LOCATE_FAILED for the console's, a
hold with CUE_FAIL for the run's in CUEING. A refused EDIT ON of the current event in EDITING or POSTROLL holds the run with
EDIT_COMMAND_FAILED, and any other changes nothing more. REFUSED returns an OFFLINE port to ONLINE. LOCAL takes an ONLINE port to
LOCAL, with its queue flushed, and an OFFLINE port too, whose queue stands; for a claimed machine it holds the run in CUEING,
ROLLING or EDITING with MACHINE_LOCAL, and in POSTROLL is deferred. In LOCAL both clear the count alone (R78, R79, R82, R104,
R126, R130, R132). -/
def Obligations.NaksEndExchange : Prop :=
  ∀ (s : State) (m : MachineId) (x : Exchange) (chars : List Byte), (s.port m).exchange = some x →
    let p := { s.port m with errors := 0, exchange := some { x with progress := .completed false } }
    let freed := { s.port m with
      errors := 0, exchange := some { x with progress := .completed false, onLine := false } }
    let heldBy := fun (t : State) (cause : HoldCause) (named : Option MachineId) => HoldTaken s t cause
      ∧ Noticed t (.runHeld cause named s.run.current (some s.run.phase) s.run.eventsDone)
    let inEdit := s.run.phase = .editing ∨ s.run.phase = .postroll
    (replyClass s m chars = some .nakRefused →
        (s.link m = .localMode → exec (.nakRefused m chars) s = .next (s.setPort m p))
          ∧ (s.link m = .online → x.onLine = false → exec (.nakRefused m chars) s = .next (s.setPort m p))
          ∧ (∀ e rest, s.link m = .online → x.onLine = true → (s.port m).queue = e :: rest →
            (e.request.isEditOff = true → exec (.nakRefused m chars) s = .next (s.setPort m freed))
              ∧ (e.request = .stop ∨ e.request = .play ∨ (∃ v, e.request = .shuttle v)
                  ∨ (e.request.isLocate = true ∧ (s.machine m).control ≠ .locating) →
                exec (.nakRefused m chars) s = .next (s.setPort m { freed with queue := rest }))
              ∧ (∀ l, e.request.isLocate = true → (s.machine m).control = .locating → (s.machine m).locate = some l →
                  l.owner = .console →
                ∃ t, exec (.nakRefused m chars) s = .next t ∧ (t.machine m).control = .free
                  ∧ (t.machine m).locate = none ∧ (t.port m) = { freed with queue := rest }
                  ∧ Noticed t (.locateFailed m (labelOf (modeOf s m) l.target) .refused)
                  ∧ OthersKept s t m ∧ t = { s with ports := t.ports, machines := t.machines, console := t.console })
              ∧ (∀ l, e.request.isLocate = true → (s.machine m).control = .locating → (s.machine m).locate = some l →
                  l.owner = .run →
                ∃ t, exec (.nakRefused m chars) s = .next t ∧ (t.machine m).control = .free
                  ∧ (t.machine m).locate = none ∧ (t.port m).exchange = freed.exchange ∧ (t.port m).errors = 0
                  ∧ (s.run.phase = .cueing → heldBy t .cueFail (some m))
                  ∧ (s.run.phase ≠ .cueing → t.port m = { freed with queue := rest } ∧ OthersKept s t m ∧ OnlyNotices s t
                      ∧ t = { s with ports := t.ports, machines := t.machines, console := t.console }))
              ∧ (e.request.isEditOn = true → ¬ (inEdit ∧ e.event = s.run.current) →
                exec (.nakRefused m chars) s = .next (s.setPort m { freed with queue := rest }))
              ∧ (e.request.isEditOn = true → inEdit → e.event = s.run.current →
                ∃ t, exec (.nakRefused m chars) s = .next t ∧ heldBy t .editCommandFailed s.recorder
                  ∧ (t.port m).exchange = freed.exchange ∧ (t.port m).errors = 0))
          ∧ (s.link m = .offline →
            ∃ t, exec (.nakRefused m chars) s = .next t ∧ t.link m = .online ∧ (t.port m).errors = 0
              ∧ (∃ y, (t.port m).exchange = some y ∧ y.progress = .completed false)
              ∧ (t.machine m).control = (s.machine m).control ∧ t.run = s.run ∧ OthersKept s t m))
      ∧ (replyClass s m chars = some .nakLocal →
        (s.link m = .localMode → exec (.nakLocal m chars) s = .next (s.setPort m p))
          ∧ (s.link m = .online →
            ∃ t, exec (.nakLocal m chars) s = .next t ∧ t.link m = .localMode ∧ (t.port m).queue = []
              ∧ (t.port m).errors = 0 ∧ (t.port m).exchange = freed.exchange
              ∧ ((s.machine m).control = .locating ∨ (s.machine m).control = .parked → (t.machine m).control = .free)
              ∧ ((s.machine m).claimed = true →
                  (s.run.phase = .cueing ∨ s.run.phase = .rolling ∨ s.run.phase = .editing) →
                  heldBy t .machineLocal (some m))
              ∧ ((s.machine m).claimed = true → s.run.phase = .postroll → FaultDeferred s t .machineLocal m)
              ∧ (s.run.phase.active = false → OthersKept s t m ∧ t.run = s.run))
          ∧ (s.link m = .offline →
            ∃ t, exec (.nakLocal m chars) s = .next t ∧ t.link m = .localMode ∧ (t.port m).errors = 0
              ∧ (t.port m).exchange = p.exchange ∧ (t.port m).queue = (s.port m).queue
              ∧ ((s.machine m).claimed = true →
                  (s.run.phase = .cueing ∨ s.run.phase = .rolling ∨ s.run.phase = .editing) →
                  heldBy t .machineLocal (some m))
              ∧ ((s.machine m).claimed = true → s.run.phase = .postroll → FaultDeferred s t .machineLocal m)))

/-- The plain events of a deck link. RECOVERY_POLL: at the field start that brings an OFFLINE port's recovery count to 0 it is
set back to 32 and POLL is sent after a break (R82). CTL_PULSE: with CTL enabled, in every link state but ABSENT, the counter
moves by one frame and stays at its ends, the tally rises up to 256 (R87); that a pulse of the other direction moves a counter at
an end back inside is the model's choice (log entry 42). REQUEST_SENT: the port listens. REPLY_CHARACTER: a
character that is not the reply's last is kept (R75, R76). Nothing else changes. -/
def Obligations.DeckLinkEventsChangePortAlone : Prop :=
  ∀ (s : State) (m : MachineId),
    (s.waiting.contains (.port m) = true → s.link m = .offline → (s.port m).recovery ≤ 1 →
        exec (.recoveryPoll m) s = .next
          ({ s with waiting := s.waiting.erase (.port m) }.setPort m
            { s.port m with
              recovery := 32
              exchange := some ⟨none, false, [0x10#8, 0x01#8, 0xEE#8], true, fieldCount s, .sending⟩ }))
      ∧ (s.link m ≠ .absent → (s.machine m).params.ctlEnable = true →
        exec (.ctlPulse m true) s = .next (s.setPort m
            { s.port m with
              ctlCounter := min 32767 ((s.port m).ctlCounter + 1), ctlTally := min 256 ((s.port m).ctlTally + 1) })
          ∧ exec (.ctlPulse m false) s = .next (s.setPort m
            { s.port m with
              ctlCounter := max (-32768) ((s.port m).ctlCounter - 1), ctlTally := min 256 ((s.port m).ctlTally + 1) }))
      ∧ (∀ forward, s.link m = .absent ∨ (s.machine m).params.ctlEnable = false →
        exec (.ctlPulse m forward) s = .next s)
      ∧ (∀ x, (s.port m).exchange = some x → x.progress = .sending →
        exec (.requestSent m) s = .next
          (s.setPort m { s.port m with exchange := some { x with progress := .listening [] } }))
      ∧ (∀ x rx c, (s.port m).exchange = some x → x.progress = .listening rx → classify (rx ++ [c]) = .incomplete →
        exec (.replyCharacter m c) s = .next
          (s.setPort m { s.port m with exchange := some { x with progress := .listening (rx ++ [c]) } }))

/-- LOCK: a STATUS whose TC evaluation has |e| within the lock window for the lock count makes a CHASING machine LOCKED, both
counts 0, with a MACHINE_STATE notice (R113). UNLOCK: |e| beyond the window + 2 for the unlock count, or a stale count of 8,
makes a LOCKED machine CHASING, both counts 0, with the same notice; for a claimed machine the run holds with LOCK_LOST in
EDITING, and in ROLLING once the sync deadline has passed and not before; in POSTROLL the fault is deferred (R114, R128, R130,
R132). -/
def Obligations.LockFollowsEvaluations : Prop :=
  ∀ (s : State) (m : MachineId),
    let holds := (s.machine m).claimed = true
      ∧ (s.run.phase = .editing ∨ (s.run.phase = .rolling ∧ s.run.deadlinePassed = true))
    let defers := (s.machine m).claimed = true ∧ s.run.phase = .postroll
    let lockLost := fun t : State => HoldTaken s t .lockLost
      ∧ Noticed t (.runHeld .lockLost (some m) s.run.current (some s.run.phase) s.run.eventsDone)
    (∀ chars p e, statusOf s m chars = some p → statusError s m p = some e → (s.machine m).control = .chasing →
      e.natAbs ≤ (s.machine m).params.lockWindow → (s.machine m).params.lockCount ≤ (s.machine m).inWindow + 1 →
      ∃ t, exec (.lock m chars) s = .next t ∧ exec (.statusReply m chars) s = .next t
        ∧ (t.machine m).control = .locked ∧ (t.machine m).inWindow = 0 ∧ (t.machine m).outWindow = 0
        ∧ Noticed t (machineStateNotice t m))
      ∧ (∀ chars p e, statusOf s m chars = some p → statusError s m p = some e → (s.machine m).control = .locked →
        (s.machine m).params.lockWindow + 2 < e.natAbs →
        (s.machine m).params.unlockCount ≤ (s.machine m).outWindow + 1 →
        ∃ t, exec (.unlock m (.status chars)) s = .next t ∧ exec (.statusReply m chars) s = .next t
          ∧ (¬ holds → (t.machine m).control = .chasing ∧ (t.machine m).inWindow = 0 ∧ (t.machine m).outWindow = 0
              ∧ Noticed t (machineStateNotice t m))
          ∧ (¬ holds → ¬ defers → t.run = s.run)
          ∧ (holds → lockLost t) ∧ (defers → FaultDeferred s t .lockLost m))
      ∧ (s.waiting.contains (.machine m) = true → (s.machine m).configured = true → (s.machine m).tcUpdated = false →
        ctlEstimate s m = none → (s.machine m).control = .locked → (s.machine m).stale = 7 →
        ∃ t, exec (.unlock m .stale) s = .next t
          ∧ (¬ holds →
            t.machine m =
                { s.machine m with
                  quality := .stale, stale := 8, control := .chasing, inWindow := 0, outWindow := 0 }
              ∧ Noticed t (machineStateNotice t m) ∧ OthersKept s t m ∧ t.ports = s.ports
              ∧ t = { s with
                  machines := t.machines, run := t.run, console := t.console, waiting := s.waiting.erase (.machine m) })
          ∧ (¬ holds → ¬ defers → t.run = s.run)
          ∧ (holds → lockLost t) ∧ (defers → FaultDeferred s t .lockLost m))

/-- The position estimate and the servo. At a field start the estimate of a machine that had a TC update stands; otherwise
it is the anchor and twice the CTL counter while CTL is enabled, an anchor exists and the tally is below 256, and is held as STALE
otherwise; the stale count follows (R89, R114). A CTL estimate is an evaluation at the field's timeline position, a STATUS that
gives a TC update one at that of the field start that opened its exchange: of a machine that chases, each places the servo's
request on the target (R111, R112), and the TC evaluation alone moves the lock counts (R113, R114). The servo's place after the
answered request has left the queue is the model's reading (log entry 8). -/
def Obligations.EstimateAndServoFollowEachUpdate : Prop :=
  (∀ (s : State) (m : MachineId), s.waiting.contains (.machine m) = true → (s.machine m).configured = true →
    let t := takeField s (.machine m)
    let x := s.machine m
    let after := fun y : MachineRec => { s.setMachine m y with waiting := s.waiting.erase (.machine m) }
    (x.tcUpdated = true → t = after { x with tcUpdated := false, stale := 0 })
      ∧ (x.tcUpdated = false →
        (∀ a, (s.port m).ctlAnchor = some a → x.params.ctlEnable = true → (s.port m).ctlTally < 256 →
            let p := wrap (dayOf s m) ((a : Int) + 2 * (s.port m).ctlCounter)
            let w := after { x with position := some p, quality := .ctl, stale := 0 }
            ServoActs w t m (currentPosition s) p
              ∧ t.machine m = { w.machine m with lastSpeed := (t.machine m).lastSpeed } ∧ OthersKept w t m
              ∧ t = { w with ports := t.ports, machines := t.machines })
          ∧ ((s.port m).ctlAnchor = none ∨ x.params.ctlEnable = false ∨ 256 ≤ (s.port m).ctlTally →
            x.control ≠ .locked ∨ x.stale < 7 → t = after { x with quality := .stale, stale := min 8 (x.stale + 1) })))
  ∧ ∀ (s : State) (m : MachineId) (x : Exchange) (chars : List Byte) (p : StatusPayload) (n : Nat), s.link m = .online →
    (s.port m).exchange = some x → statusOf s m chars = some p → statusPosition (modeOf s m) p = some n →
    ((s.machine m).control = .chasing
      ∨ (s.machine m).control = .locked
        ∧ ((s.machine m).claimed = false ∨ (s.machine m).outWindow + 1 < (s.machine m).params.unlockCount)) →
    let line := if (s.port m).queue = [] then x.onLine else false
    let w := (s.setPort m
      { s.port m with
        errors := 0, exchange := some { x with progress := .completed false, onLine := line }
        queue := if x.onLine then (s.port m).queue.drop 1 else (s.port m).queue
        ctlAnchor := some n, ctlCounter := 0, ctlTally := 0 }).setMachine m
      { s.machine m with
        transport := some p.transport, parkedFlag := p.parked, position := some n, quality := .tc, tcUpdated := true }
    let position := positionAt s x.field
    let c := s.machine m
    ∃ t, exec (.statusReply m chars) s = .next t ∧ ServoActs w t m position n ∧ OthersKept w t m
      ∧ t = { w with ports := t.ports, machines := t.machines, console := t.console }
      ∧ (s.stopAsserted = true ∨ (∀ target, ¬ TargetIs w m position target) → t = w)
      ∧ ∀ target, s.stopAsserted = false → TargetIs w m position target →
          let e := (fold (dayOf s m) ((target : Int) - (n : Int) - c.params.lag)).natAbs
          (c.control = .chasing →
              t.machine m =
                { w.machine m with
                  lastSpeed := (t.machine m).lastSpeed
                  control := if e ≤ c.params.lockWindow ∧ c.params.lockCount ≤ c.inWindow + 1 then .locked else .chasing
                  inWindow :=
                    if e ≤ c.params.lockWindow ∧ ¬ c.params.lockCount ≤ c.inWindow + 1 then c.inWindow + 1 else 0
                  outWindow :=
                    if e ≤ c.params.lockWindow ∧ c.params.lockCount ≤ c.inWindow + 1 then 0 else c.outWindow })
            ∧ (c.control = .locked →
              t.machine m =
                { w.machine m with
                  lastSpeed := (t.machine m).lastSpeed
                  control :=
                    if c.params.lockWindow + 2 < e ∧ c.params.unlockCount ≤ c.outWindow + 1 then .chasing else .locked
                  outWindow :=
                    if c.params.lockWindow + 2 < e ∧ ¬ c.params.unlockCount ≤ c.outWindow + 1 then c.outWindow + 1 else 0
                  inWindow :=
                    if c.params.lockWindow + 2 < e ∧ c.params.unlockCount ≤ c.outWindow + 1 then 0 else c.inWindow })

/-! ### The Run Controller -/

/-- ROLL: at a field start in CUEING at which every machine of the event is PARKED and the parity matches that of T0, the
timeline clock starts at this field with T0, each machine is CHASING with leader TIMELINE, its target terms and PLAY placed,
and the phase is ROLLING, with a RUN_PHASE notice (R21, R109, R127). -/
def Obligations.RollStartsClockAndChase : Prop :=
  ∀ (s : State) (e : Event) (rt : RunTimes) (f : FieldStart), s.waiting.contains .run = true → s.run.phase = .cueing →
    s.run.copy = some e → s.run.times = some rt → s.timeline.field = some f → f.parity = parityOf rt.t0 →
    (∀ m ∈ eventMachines s e.record, (s.machine m).control = .parked) →
    ∃ t, exec .roll s = .next t
      ∧ t.timeline = { s.timeline with clock := some ⟨f.count, rt.t0⟩ }
      ∧ t.run = { s.run with phase := .rolling, cueingCount := min 7200 (s.run.cueingCount + 1) }
      ∧ Noticed t (.runPhase .rolling s.run.mode s.run.current)
      ∧ (∀ m ∈ eventMachines s e.record,
          t.machine m =
              { s.machine m with
                leader := .timeline, terms := machineTerms s e.record m, control := .chasing, inWindow := 0
                outWindow := 0, lastSpeed := (t.machine m).lastSpeed }
            ∧ (TakesMotion s m → (t.machine m).lastSpeed = some 256
                ∧ (t.port m).queue = motionQueue (s.port m).queue .play))
      ∧ (∀ m, m ∉ eventMachines s e.record → t.machine m = s.machine m ∧ t.port m = s.port m)
      ∧ OnlyNotices s t
      ∧ t = { s with
          timeline := t.timeline, ports := t.ports, machines := t.machines, run := t.run, console := t.console
          waiting := s.waiting.erase .run }

/-- CUE_TIMEOUT and SYNC_DEADLINE at a field start: in CUEING, when the cueing count reaches the timeout in force and a machine
is not PARKED, the run holds with CUE_TIMEOUT; at the sync deadline in ROLLING the run holds with SYNC_FAIL unless every machine
is LOCKED, and passes the deadline otherwise; each names the first such machine, recorder first (R126, R128, R134, R142). -/
def Obligations.CueTimeoutAndSyncDeadlineHold : Prop :=
  ∀ s : State, s.waiting.contains .run = true →
    (∀ m, s.run.phase = .cueing → cueTimeoutInForce s ≤ min 7200 (s.run.cueingCount + 1) →
        firstNot s .parked = some m →
        ∃ t, exec .cueTimeout s = .next t ∧ HoldTaken s t .cueTimeout
          ∧ Noticed t (.runHeld .cueTimeout (some m) s.run.current (some .cueing) s.run.eventsDone))
      ∧ ∀ rt p, s.run.phase = .rolling → s.run.times = some rt → currentPosition s = some p → rt.syncDeadline = p →
        (∀ m, firstNot s .locked = some m →
          ∃ t, exec .syncDeadline s = .next t ∧ HoldTaken s t .syncFail
            ∧ Noticed t (.runHeld .syncFail (some m) s.run.current (some .rolling) s.run.eventsDone))
        ∧ (firstNot s .locked = none → (∀ x ∈ rt.editOns, x.position ≠ p) →
          exec .syncDeadline s = .next
            { s with run := { s.run with deadlinePassed := true }, waiting := s.waiting.erase .run })

/-- EDIT_ON_FIELD: at E0 the phase is EDITING; in RECORD mode EDIT ON for the field's tracks joins the recorder's queue, the
tracks join the edit-on track set and the recording-started flag is set; in PREVIEW mode no request is placed. EDIT_OFF_FIELD:
EDIT OFF for the whole track set joins the queue in RECORD mode, the edit-on track set is cleared and the phase is POSTROLL. A
recorder's port that cannot hold the request holds the run: with EDIT_COMMAND_FAILED when it is full, with MACHINE_OFFLINE or
MACHINE_LOCAL when it is OFFLINE or LOCAL, naming the recorder (R129, R131, R142). -/
def Obligations.EditFieldsPlaceEditRequests : Prop :=
  ∀ (s : State) (rt : RunTimes) (p : Nat) (e : Event) (rec : MachineId), s.waiting.contains .run = true →
    s.run.times = some rt → currentPosition s = some p → s.run.copy = some e → s.recorder = some rec →
    let w := s.waiting.erase .run
    let full := ¬ (s.port rec).queue.length < 4
    let holds := fun (c : Instr) => ∀ cause,
      (s.link rec = .online ∧ full ∧ cause = .editCommandFailed) ∨ (s.link rec = .offline ∧ cause = .machineOffline)
        ∨ (s.link rec = .localMode ∧ cause = .machineLocal) →
      ∃ t, exec c s = .next t ∧ HoldTaken s t cause
        ∧ Noticed t (.runHeld cause (some rec) s.run.current (some .editing) s.run.eventsDone)
    (∀ x, (s.run.phase = .rolling ∨ s.run.phase = .editing) → rt.editOns.find? (fun y => y.position == p) = some x →
        rt.syncDeadline ≠ p → rt.editOff ≠ p → rt.postrollEnd ≠ p → (s.run.phase = .rolling → rt.e0 = p) →
        (s.run.mode = some .record → s.link rec = .online → ¬ full →
          ∃ t, exec .editOnField s = .next t
            ∧ t.run = { s.run with
                phase := .editing, editSet := s.run.editSet.union x.tracks, recordingStarted := true }
            ∧ t.port rec = { s.port rec with
                queue := (s.port rec).queue ++ [⟨.editOn x.tracks, s.run.current⟩] }
            ∧ OthersKept s t rec ∧ t.machine rec = s.machine rec
            ∧ (rt.e0 = p → Noticed t (.runPhase .editing (some .record) s.run.current)) ∧ OnlyNotices s t
            ∧ t = { s with ports := t.ports, run := t.run, console := t.console, waiting := w })
        ∧ (s.run.mode = some .preview →
          ∃ t, exec .editOnField s = .next t ∧ t.run = { s.run with phase := .editing }
            ∧ (rt.e0 = p → Noticed t (.runPhase .editing (some .preview) s.run.current)) ∧ OnlyNotices s t
            ∧ t = { s with run := t.run, console := t.console, waiting := w })
        ∧ (s.run.mode = some .record → holds .editOnField))
      ∧ (s.run.phase = .editing → (∀ x ∈ rt.editOns, x.position ≠ p) → rt.editOff = p → rt.postrollEnd ≠ p →
        (s.run.mode = some .record → s.link rec = .online → ¬ full →
          ∃ t, exec .editOffField s = .next t
            ∧ t.run = { s.run with phase := .postroll, editSet := TrackSet.none }
            ∧ t.port rec = { s.port rec with
                queue := (s.port rec).queue ++ [⟨.editOff e.record.tracks, s.run.current⟩] }
            ∧ OthersKept s t rec ∧ t.machine rec = s.machine rec
            ∧ Noticed t (.runPhase .postroll (some .record) s.run.current) ∧ OnlyNotices s t
            ∧ t = { s with ports := t.ports, run := t.run, console := t.console, waiting := w })
        ∧ (s.run.mode = some .preview →
          ∃ t, exec .editOffField s = .next t ∧ t.run = { s.run with phase := .postroll }
            ∧ Noticed t (.runPhase .postroll (some .preview) s.run.current) ∧ OnlyNotices s t
            ∧ t = { s with run := t.run, console := t.console, waiting := w })
        ∧ (s.run.mode = some .record → holds .editOffField))

/-- POSTROLL_END: the machines of the event are released, the clock stops, the event is PERFORMED with its flags clear in RECORD
mode and as it was before in PREVIEW mode, the events-done count rises, and then the pending hold is taken with its cause, or in
SINGLE scope the run ends, or in RANGE scope the next event is taken from that state, with the cursor moved past the event. When
the edit-off field and the postroll end are the same field start, EDIT_OFF_FIELD and POSTROLL_END name that one step: the edit-off
field is made first and the postroll end from the state `v` that it leaves; a recorder's port that cannot hold the EDIT OFF holds
the run at the former (R31, R110, R122, R131, R133). -/
def Obligations.PostrollEndCompletesEvent : Prop :=
  (∀ (s : State) (rt : RunTimes) (p h : Nat) (e : Event), s.waiting.contains .run = true → s.run.phase = .postroll →
    s.run.times = some rt → currentPosition s = some p → rt.postrollEnd = p → s.run.current = some h →
    findEvent s h = some e →
    let complete := fun t : State =>
      t.timeline = { s.timeline with clock := none } ∧ listOf t = listOf s
        ∧ (∀ m ∈ runMachines s, (t.machine m).claimed = false
          ∧ ((s.machine m).claimed = true → (t.machine m).control = .free ∧ (t.machine m).leader = .noLeader))
        ∧ (s.run.mode = some .record → findEvent t h = some (e.withState .performed ⟨false, false⟩))
        ∧ (s.run.mode = some .preview → findEvent t h = some (e.restored s.run.prior))
        ∧ t.run.eventsDone = min 65535 (s.run.eventsDone + 1) ∧ t.run.copy = none ∧ t.run.times = none
        ∧ t.run.editSet = TrackSet.none ∧ t.run.recordingStarted = false
        ∧ t.effects = s.effects ∧ t.cues = s.cues ∧ t.recorder = s.recorder ∧ t.runParams = s.runParams
    (∀ hold, s.run.holdPending = some hold →
        ∃ t, exec .postrollEnd s = .next t ∧ complete t ∧ t.run.phase = .held ∧ t.run.holdCause = some hold.cause
          ∧ t.run.holdPending = none ∧ t.run.current = some h
          ∧ Noticed t (.runHeld hold.cause hold.machine (some h) (some .postroll) t.run.eventsDone))
      ∧ (∀ n, s.run.holdPending = none → s.run.scope = some (.single n) →
        ∃ t, exec .postrollEnd s = .next t ∧ complete t ∧ t.run.phase = .idle ∧ t.run.current = none
          ∧ Noticed t (.runEnd s.run.mode t.run.eventsDone))
      ∧ (∀ a z, s.run.holdPending = none → s.run.scope = some (.range a z) →
        let u := completeEvent { s with waiting := s.waiting.erase .run } h
        exec .postrollEnd s = .next (takeEvent u (searchScope u)) ∧ complete u
          ∧ u.run.cursor = (if eventAfter s s.run.cursor e then ⟨startOffset s e.record, some e.insertion⟩
              else s.run.cursor)))
  ∧ ∀ (s : State) (rt : RunTimes) (p h : Nat) (copy : Event) (rec : MachineId), s.waiting.contains .run = true →
    s.run.phase = .editing → s.run.times = some rt → currentPosition s = some p → (∀ x ∈ rt.editOns, x.position ≠ p) →
    rt.editOff = p → rt.postrollEnd = p → s.run.current = some h → s.run.copy = some copy → s.recorder = some rec →
    (s.run.mode = some .preview ∨ (s.run.mode = some .record ∧ s.link rec = .online ∧ (s.port rec).queue.length < 4) →
        ∃ v, exec .postrollEnd s = exec .postrollEnd v ∧ exec .editOffField s = exec .postrollEnd v
          ∧ v.run = { s.run with
              phase := .postroll, editSet := if s.run.mode = some .record then TrackSet.none else s.run.editSet }
          ∧ v.port rec = { s.port rec with
              queue := (s.port rec).queue
                ++ if s.run.mode = some .record then [⟨.editOff copy.record.tracks, some h⟩] else [] }
          ∧ OthersKept s v rec ∧ Noticed v (.runPhase .postroll s.run.mode (some h)) ∧ OnlyNotices s v
          ∧ v = { s with ports := v.ports, run := v.run, console := v.console })
      ∧ (∀ cause, s.run.mode = some .record →
        (s.link rec = .online ∧ ¬ (s.port rec).queue.length < 4 ∧ cause = .editCommandFailed)
          ∨ (s.link rec = .offline ∧ cause = .machineOffline) ∨ (s.link rec = .localMode ∧ cause = .machineLocal) →
        ∃ t, exec .editOffField s = .next t ∧ HoldTaken s t cause
          ∧ Noticed t (.runHeld cause (some rec) (some h) (some .editing) s.run.eventsDone))

/-- RUN that passes R121: the mode and scope are set, the events-done count is 0, no hold is pending, a RANGE's cursor stands
before its first start offset; then the first take is made, which keeps these: cueing begins on a valid event, a failing one
holds the run with the cause of R123, and with no event the run ends. Answered ACCEPTED, or ADJUSTED for a dropped label (R121 to
R124). A cue set is loaded with the event, each line's compares as R169 and R170 say. `u` is the state at the take. -/
def Obligations.RunMakesFirstTake : Prop :=
  ∀ (s : State) (q : RequestMessage) (rest : List RequestMessage) (n : Nat) (mode : RunMode) (scope : ScopeBytes)
    (c : ConvertedScope), HeadIs s q rest (.run n scope) → convertScope s scope = .ok c → runModeOf? n = some mode →
    (s.run.phase ≠ .idle → Refuses .run s q rest .busy)
      ∧ (s.run.phase = .idle → s.recorder = none → Refuses .run s q rest .noRecorder)
      ∧ (s.run.phase = .idle → s.recorder ≠ none →
        (∀ a z, c.scope = .range a z → z < a → Refuses .run s q rest .range)
        ∧ (∀ h, c.scope = .single h → findEvent s h = none → Refuses .run s q rest .noEvent)
        ∧ ∀ first last h, (c.scope = .single h ∨ (c.scope = .range first last ∧ first ≤ last)) →
          (∀ k, c.scope = .single k → (findEvent s k).isSome = true) →
          let u := { s with run := { s.run with
            mode := some mode, scope := some c.scope, eventsDone := 0, holdCause := none, holdPending := none
            cursor := if c.scope = .range first last then ⟨first, none⟩ else s.run.cursor } }
          let found := if c.scope = .range first last then takeSearch u mode first last ⟨first, none⟩ else findEvent s h
          let answered := fun t : State =>
            exec .run s = .next t ∧ Replied s t q rest (if c.advanced then .adjusted else .accepted) c.used
          (found = none → ∃ t, answered t ∧ TakeEnded u t)
            ∧ (∀ e, found = some e → TakeOpen u e → ∃ t, answered t ∧ TakeStarted u t e)
            ∧ (∀ e cause m, found = some e →
                validateTake u e.record (runTimesOf (dayRec u) (editDelay u) u.runParams e.record) = some (cause, m) →
                ∃ t, answered t ∧ TakeHeld u t e cause m))

/-- HOLD in an active phase sets the hold-pending flag with HOLD_REQUEST unless a deferred fault is pending; ABORT in an active
phase holds the run at once with OPERATOR_ABORT, by the steps of a hold. In HELD both are answered OK and change nothing; in IDLE
both are refused NOT_ACTIVE (R136, R137). A hold taken in an active phase has the effects of R134, whatever its cause, and in
IDLE and HELD it does nothing; with tracks in edit, the recorder's EDIT OFF stands directly behind the request on the line
(R85). -/
def Obligations.HoldAndAbortStopRun : Prop :=
  (∀ (s : State) (q : RequestMessage) (rest : List RequestMessage),
    (HeadIs s q rest .hold →
      (s.run.phase = .idle → Refuses .hold s q rest .notActive)
        ∧ (s.run.phase = .held → exec .hold s = .next (replied q rest .ok [] s))
        ∧ (s.run.phase.active = true →
          (∀ x, s.run.holdPending = some x → x.cause ≠ .holdRequest →
              exec .hold s = .next (replied q rest .ok [] s))
            ∧ ((s.run.holdPending = none ∨ ∃ x, s.run.holdPending = some x ∧ x.cause = .holdRequest) →
              exec .hold s = .next
                (replied q rest .ok [] { s with run := { s.run with holdPending := some ⟨.holdRequest, none⟩ } }))))
      ∧ (HeadIs s q rest .abort →
        (s.run.phase = .idle → Refuses .abort s q rest .notActive)
          ∧ (s.run.phase = .held → exec .abort s = .next (replied q rest .ok [] s))
          ∧ (s.run.phase.active = true →
            ∃ t, exec .abort s = .next t ∧ Replied s t q rest .ok [] ∧ HoldTaken s t .operatorAbort
              ∧ Noticed t (.runHeld .operatorAbort none s.run.current (some s.run.phase) s.run.eventsDone))))
  ∧ ∀ (s : State) (cause : HoldCause) (m : Option MachineId),
    (s.run.phase.active = false → holdRun s cause m = s)
      ∧ (s.run.phase.active = true →
        HoldTaken s (holdRun s cause m) cause
          ∧ Noticed (holdRun s cause m) (.runHeld cause m s.run.current (some s.run.phase) s.run.eventsDone)
          ∧ ∀ rec e rest, s.recorder = some rec → s.link rec = .online → s.run.editSet.isEmpty = false →
              (s.port rec).queue = e :: rest → (s.port rec).headOnLine = true → rest.length < 3 →
              e.request.isMotion = false →
              ((holdRun s cause m).port rec).queue.take 2 = [e, ⟨.editOff s.run.editSet, s.run.current⟩])

/-- RESUME RETRY and RESUME SKIP are refused NOT_HELD unless the run is HELD. RETRY takes the event the current handle names, as
it now stands, or is refused NO_EVENT; the cursor stays. SKIP clears the hold cause; in RANGE scope it moves the cursor past the
current event, when that is live and after it, and takes the next by the search from there; in SINGLE scope it ends the run. A
take starts the event, holds the run again when validation fails, or ends the run when it finds none (R122, R123, R138, R139); a
take loads the cue lines (R169, R170). -/
def Obligations.ResumeTakesAgain : Prop :=
  ∀ (s : State) (q : RequestMessage) (rest : List RequestMessage),
    (s.run.phase ≠ .held →
        (HeadIs s q rest .resumeRetry → Refuses .resumeRetry s q rest .notHeld)
          ∧ (HeadIs s q rest .resumeSkip → Refuses .resumeSkip s q rest .notHeld))
      ∧ (s.run.phase = .held →
        (HeadIs s q rest .resumeRetry → s.run.current.bind (findEvent s) = none → Refuses .resumeRetry s q rest .noEvent)
        ∧ (∀ e, HeadIs s q rest .resumeRetry → s.run.current.bind (findEvent s) = some e →
          (TakeOpen s e →
              ∃ t, exec .resumeRetry s = .next t ∧ Replied s t q rest .accepted [] ∧ TakeStarted s t e)
            ∧ (∀ cause m,
                validateTake s e.record (runTimesOf (dayRec s) (editDelay s) s.runParams e.record) = some (cause, m) →
                ∃ t, exec .resumeRetry s = .next t ∧ Replied s t q rest .accepted [] ∧ TakeHeld s t e cause m))
        ∧ (∀ n, HeadIs s q rest .resumeSkip → s.run.scope = some (.single n) →
          ∃ t, exec .resumeSkip s = .next t ∧ Replied s t q rest .accepted []
            ∧ TakeEnded s t)
        ∧ (∀ a z cursor, HeadIs s q rest .resumeSkip → s.run.scope = some (.range a z) →
          (∀ e, s.run.current.bind (findEvent s) = some e →
            cursor = if eventAfter s s.run.cursor e then ⟨startOffset s e.record, some e.insertion⟩ else s.run.cursor) →
          (s.run.current.bind (findEvent s) = none → cursor = s.run.cursor) →
          let u := { s with run := { s.run with holdCause := none, cursor := cursor } }
          let found := takeSearch u (s.run.mode.getD .preview) a z cursor
          (found = none → ∃ t, exec .resumeSkip s = .next t ∧ Replied s t q rest .accepted [] ∧ TakeEnded u t)
            ∧ (∀ x, found = some x → TakeOpen u x →
                ∃ t, exec .resumeSkip s = .next t ∧ Replied s t q rest .accepted [] ∧ TakeStarted u t x)
            ∧ (∀ x cause m, found = some x →
                validateTake u x.record (runTimesOf (dayRec u) (editDelay u) u.runParams x.record) = some (cause, m) →
                ∃ t, exec .resumeSkip s = .next t ∧ Replied s t q rest .accepted [] ∧ TakeHeld u t x cause m)))

/-- RESET RUN is refused NOT_HELD unless the run is HELD; it sets the phase to IDLE, clears the current handle, the hold cause and
the hold-pending flag, keeps the rest, and raises RUN_PHASE IDLE (R140). SET RUN PARAMETERS writes the values given when each is
in its range and the sync margin that results is below the preroll, else is refused RANGE (R191). -/
def Obligations.RunSettingsRequests : Prop :=
  ∀ (s : State) (q : RequestMessage) (rest : List RequestMessage),
    (HeadIs s q rest .resetRun →
      (s.run.phase ≠ .held → Refuses .resetRun s q rest .notHeld)
        ∧ (s.run.phase = .held →
          ∃ t, exec .resetRun s = .next t ∧ Replied s t q rest .ok []
            ∧ t.run = { s.run with phase := .idle, current := none, holdCause := none, holdPending := none }
            ∧ Noticed t (.runPhase .idle s.run.mode none) ∧ t = { s with run := t.run, console := t.console }))
      ∧ ∀ a b c d, HeadIs s q rest (.setRunParameters a b c d) →
        let p : RunParams := ⟨a.getD s.runParams.preroll, b.getD s.runParams.postroll, c.getD s.runParams.cueTimeout,
          d.getD s.runParams.syncMargin⟩
        let fits := (∀ v, a = some v → 60 ≤ v ∧ v ≤ 1800) ∧ (∀ v, b = some v → v ≤ 600)
          ∧ (∀ v, c = some v → 600 ≤ v ∧ v ≤ 7200) ∧ (∀ v, d = some v → 4 ≤ v ∧ v ≤ 600) ∧ p.syncMargin < p.preroll
        (fits → exec .setRunParameters s = .next
            (replied q rest .ok (u16 p.preroll ++ u16 p.postroll ++ u16 p.cueTimeout ++ u16 p.syncMargin)
              { s with runParams := p }))
          ∧ (¬ fits → Refuses .setRunParameters s q rest .range)

/-! ### The Cue Unit and the Effects Generator -/

/-- SET CUE LINE sets a line's polarity alone, and its pin takes the level of the output state under it; FIRE sets the line
ACTIVE with its counter at the width, leaving its compares; while the recognised STOP state is ASSERTED FIRE is refused STOPPED;
an unknown line or polarity is refused BAD_REQUEST and a width outside 1 to 255 RANGE (R168, R173). That FIRE tests the line,
then the width, then the STOP state is the model's reading (log entry 50). -/
def Obligations.CueRequestsSetLine : Prop :=
  ∀ (s : State) (q : RequestMessage) (rest : List RequestMessage) (n k : Nat),
    (HeadIs s q rest (.setCueLine n k) →
      (7 < n ∨ 1 < k → Refuses .setCueLine s q rest .badRequest)
        ∧ ∀ g p, Unit8.ofNat? n = some g → polarityOf? k = some p →
          let line := { s.cueLine g with polarity := p }
          exec .setCueLine s = .next (replied q rest .ok [] (setCueLine s g line))
            ∧ line.pinHigh = (if p = .activeHigh then (s.cueLine g).active else !(s.cueLine g).active))
      ∧ (HeadIs s q rest (.fire n k) →
        (7 < n → Refuses .fire s q rest .badRequest)
          ∧ ∀ g, Unit8.ofNat? n = some g →
            (k < 1 ∨ 255 < k → Refuses .fire s q rest .range)
              ∧ (1 ≤ k → k ≤ 255 → s.stopAsserted = true → Refuses .fire s q rest .stopped)
              ∧ (1 ≤ k → k ≤ 255 → s.stopAsserted = false →
                exec .fire s = .next
                  (replied q rest .ok [] (setCueLine s g { s.cueLine g with active := true, counter := k }))))

/-- CUE_FIRE and CUE_PULSE_END at a field start with the STOP state RELEASED: a line whose armed compare is reached is ACTIVE with
the compare's width, and its next compares move up; a line whose counter reaches 0 with no compare reached is INACTIVE; an ACTIVE
line otherwise counts down by one; nothing but the lines changes (R171). -/
def Obligations.CueLinesCountAndFire : Prop :=
  ∀ (s : State) (g : CueLineId), s.waiting.contains .cue = true → s.stopAsserted = false →
    let l := s.cueLine g
    let quietly := fun t : State =>
      t = { s with cues := { s.cues with lines := t.cues.lines }, waiting := s.waiting.erase .cue }
    (∀ p c, currentPosition s = some p → l.armed = some c → 0 ≤ foldDiff (dayRec s) p c.position →
        (∀ b, l.buffered = some b → foldDiff (dayRec s) p b.position < 0) →
        ∃ t, exec (.cueFire g) s = .next t ∧ quietly t
          ∧ t.cueLine g =
              { l with
                active := true, counter := c.width, armed := l.buffered, buffered := l.pendingList.head?
                pendingList := l.pendingList.tail })
      ∧ (∀ p a b, currentPosition s = some p → l.armed = some a → l.buffered = some b →
        0 ≤ foldDiff (dayRec s) p a.position → 0 ≤ foldDiff (dayRec s) p b.position → l.pendingList = [] →
        ∃ t, exec (.cueFire g) s = .next t ∧ quietly t
          ∧ t.cueLine g = { l with active := true, counter := b.width, armed := none, buffered := none })
      ∧ (l.active = true → l.counter = 1 →
        (currentPosition s = none ∨ l.armed = none
          ∨ ∃ p c, currentPosition s = some p ∧ l.armed = some c ∧ foldDiff (dayRec s) p c.position < 0) →
        ∃ t, exec (.cuePulseEnd g) s = .next t ∧ quietly t ∧ t.cueLine g = { l with active := false, counter := 0 }
          ∧ ∀ k, (s.cueLine k).active = true → 1 < (s.cueLine k).counter → (s.cueLine k).armed = none →
              t.cueLine k = { s.cueLine k with counter := (s.cueLine k).counter - 1 })

/-- STOP_ASSERTION, in whichever order the reports reach the blocks: the recognised state is ASSERTED, every line is INACTIVE
without compares, ALL_STOP is raised, every configured machine is FREE without leader and with lock counts 0, an active run is
HELD, the effects are frozen, and with no active run every ONLINE machine has STOP placed. STOP_RELEASE: the state is RELEASED,
ALL_STOP is raised, the freeze is cleared, and nothing is moved (R116, R135, R161, R162, R175, R176). -/
def Obligations.StopInputStopsSuite : Prop :=
  (∀ (s : State) (order : List StopReport), s.waiting.contains .cue = true → s.stopAsserted = false →
      ∃ t, exec (.stopAssertion order) s = .next t
        ∧ t.stopAsserted = true ∧ t.effects = { s.effects with freeze := true }
        ∧ (∀ g, (t.cueLine g).atRest ∧ (t.cueLine g).polarity = (s.cueLine g).polarity) ∧ t.cues.cueSet = none
        ∧ Noticed t (.allStop .asserted)
        ∧ (∀ m, (s.machine m).configured = true →
            (t.machine m).control = .free ∧ (t.machine m).leader = .noLeader ∧ (t.machine m).inWindow = 0
              ∧ (t.machine m).outWindow = 0 ∧ (t.machine m).params = (s.machine m).params
              ∧ (t.machine m).position = (s.machine m).position ∧ (t.machine m).markIn = (s.machine m).markIn
              ∧ (t.machine m).markOut = (s.machine m).markOut)
        ∧ (s.run.phase.active = true →
            t.run.phase = .held ∧ t.run.holdCause = some .allStop ∧ t.timeline.clock = none)
        ∧ (s.run.phase.active = false → t.run = s.run ∧ t.timeline = s.timeline ∧ t.store = s.store
            ∧ ∀ m, (s.machine m).configured = true → TakesMotion s m →
                (t.port m).queue = motionQueue (s.port m).queue .stop ∧ (t.machine m).lastSpeed = some 0)
        ∧ listOf t = listOf s ∧ t.recorder = s.recorder ∧ t.runParams = s.runParams)
    ∧ ∀ s : State, s.waiting.contains .cue = true → s.stopAsserted = true → (∀ g, (s.cueLine g).atRest) →
      ∃ t, exec .stopRelease s = .next t
        ∧ t.cues = { s.cues with stop := .released } ∧ t.effects = { s.effects with freeze := false }
        ∧ Noticed t (.allStop .released) ∧ OnlyNotices s t
        ∧ t = { s with
            cues := t.cues, effects := t.effects, console := t.console, waiting := s.waiting.erase .cue }

/-- SELECT sets the manual selection to a machine or BLACK, in every phase, and refuses any other value (R163); READ STATUS
reports the state as it stands and clears the overrun and overflow flags, which is all that changes (R190); READ EFFECTS, READ
MACHINE, READ RUN and READ CUE LINE report the elements of R164, of the record of R93 and R95, of R141 and of R177, in that order,
and change nothing (R99). Where the manual leaves a byte
of a report open, its layout is the model's choice or reading: READ STATUS by log entry 13; READ EFFECTS by 25 and 45; READ
MACHINE by 12, 26 and 31; READ RUN by 12, 26 and 30; READ CUE LINE by 31 and 46. -/
def Obligations.SelectAndReadRequests : Prop :=
  ∀ (s : State) (q : RequestMessage) (rest : List RequestMessage),
    (∀ n, HeadIs s q rest (.select n) →
        (8 < n → Refuses .select s q rest .badRequest)
          ∧ (n = 8 → exec .select s = .next
              (replied q rest .ok [8#8] { s with effects := { s.effects with manual := .black } }))
          ∧ ∀ m, Unit8.ofNat? n = some m → exec .select s = .next
              (replied q rest .ok (u8 n) { s with effects := { s.effects with manual := .machine m } }))
      ∧ (HeadIs s q rest .readStatus →
        exec .readStatus s = .next
          (replied q rest .ok
            (u8 s.run.phase.code ++ u8 s.timeline.refState.code ++ u8 s.cues.stop.code ++ flagByte s.console.overrun
              ++ flagByte s.console.overflow ++ u16 s.store.events.length ++ machineOrNone s.recorder
              ++ u8 s.timeline.standard.code ++ u16 s.console.notices.length)
            { s with console := { s.console with overrun := false, overflow := false } }))
      ∧ (let g := s.effects
        let report := u8 (match g.manual with | .machine m => m.toNat | .black => 8) ++ flagByte g.freeze
          ++ u8 (match g.frame.aSelect with | .machine m => m.toNat | .black => 8)
          ++ u8 (match g.frame.bSelect with | .machine m => m.toNat | .black => 8)
          ++ u16 g.frame.level ++ u8 g.form.code ++ u16 (match g.form with | .transition j => j | _ => 65535)
          ++ u16 (match g.programme with | some e => e.handle | none => 65535)
        (∀ l, HeadIs s q rest (.readEffects l) → l < s.timeline.standard.lines →
            let spans := (g.frame.lines[l]?).getD []
            exec .readEffects s = .next (replied q rest .ok
              (report ++ u8 spans.length ++ spans.flatMap (fun x => u16 x.start ++ u16 x.stop)) s))
          ∧ (HeadIs s q rest (.readEffects 65535) → exec .readEffects s = .next (replied q rest .ok report s))
          ∧ (∀ l, HeadIs s q rest (.readEffects l) → s.timeline.standard.lines ≤ l → l ≠ 65535 →
            Refuses .readEffects s q rest .range))
      ∧ (∀ m, HeadIs s q rest (.readMachine m) →
        let x := s.machine m
        let p := x.params
        let label := fun position : Option Nat =>
          match position with | some n => labelBytes (labelOf (modeOf s m) n) | none => List.replicate 5 0xff#8
        exec .readMachine s = .next (replied q rest .ok
          (flagByte x.configured ++ u8 (if s.recorder = some m then 1 else 0)
            ++ (u8 p.mode.code ++ u8 p.gain ++ u8 p.lockWindow ++ u8 p.lockCount ++ u8 p.unlockCount
              ++ u16 p.shuttleLimit ++ u8 (p.lag % 256).toNat ++ u8 p.editDelay ++ u8 p.faultLimit ++ flagByte p.ctlEnable)
            ++ u8 (s.link m).code ++ u8 (match x.transport with | some n => n.code | none => 255) ++ flagByte x.parkedFlag
            ++ u8 x.control.code
            ++ (match x.locate with
                | some l => label (some l.target) ++ u8 l.owner.code ++ flagByte l.acknowledged ++ u16 l.mismatches
                | none => label none ++ u8 255 ++ [Config.absentFlag] ++ u16 65535)
            ++ flagByte x.claimed
            ++ (match x.leader with
                | .noLeader => u8 255 ++ i32 0
                | .timeline => u8 16 ++ i32 0
                | .machine l off => u8 l.toNat ++ i32 off)
            ++ label x.position ++ u8 (if x.position = none then 255 else x.quality.code)
            ++ u16 x.stale ++ u16 x.inWindow ++ u16 x.outWindow ++ label x.markIn ++ label x.markOut
            ++ (match x.lastSpeed with | some v => i16 v | none => u16 32768)) s))
      ∧ (HeadIs s q rest .readRun →
        let r := s.run
        let label := fun n => labelBytes (labelOf (timelineMode s) n)
        let fromOrigin := fun n : Nat => wrap (dayRec s) ((s.timeline.origin : Int) + (n : Int))
        exec .readRun s = .next (replied q rest .ok
          (u8 (match r.mode with | some x => x.code | none => 255)
            ++ (match r.scope with
                | none => u8 255
                | some (.single h) => u8 0 ++ u16 h
                | some (.range a z) => u8 1 ++ label (fromOrigin a) ++ label (fromOrigin z))
            ++ u8 r.phase.code ++ u16 (match r.current with | some h => h | none => 65535)
            ++ u8 (match r.holdCause with | some c => c.code | none => 255) ++ flagByte r.holdPending.isSome
            ++ u8 (match r.holdPending with | some x => x.cause.code | none => 255)
            ++ u32 r.cursor.offset
            ++ u32 (match r.cursor.insertion with | some n => n | none => Config.absentInsertion)
            ++ u16 r.eventsDone ++ u8 r.editSet.code
            ++ (if r.phase = .idle ∨ r.phase = .held then []
                else
                  (match r.times with
                    | some t => label t.t0 ++ u8 t.editOns.length
                        ++ t.editOns.flatMap (fun x => label x.position ++ u8 x.tracks.code)
                        ++ label t.e0 ++ label t.syncDeadline ++ label t.editOff ++ label t.postrollEnd
                    | none => [])
                    ++ (match currentPosition s with | some n => label n | none => List.replicate 5 0xff#8))) s))
      ∧ ∀ n, HeadIs s q rest (.readCueLine n) →
        (7 < n → Refuses .readCueLine s q rest .badRequest)
          ∧ ∀ g, Unit8.ofNat? n = some g →
            let x := s.cueLine g
            let compare := fun c : Compare => labelBytes (labelOf (timelineMode s) c.position) ++ u8 c.width
            let orNone := fun c : Option Compare =>
              match c with | some c => compare c | none => List.replicate 5 0xff#8 ++ u8 0
            exec .readCueLine s = .next (replied q rest .ok
              (u8 x.polarity.code ++ flagByte x.active ++ u8 x.counter ++ orNone x.armed ++ orNone x.buffered
                ++ u8 x.pendingList.length ++ x.pendingList.flatMap compare
                ++ u16 (match s.cues.cueSet with | some c => c.handle | none => 65535)
                ++ u8 (match s.cues.cueSet with | some c => c.mode.code | none => 255)) s)

/-- A field start taken by the Effects Generator (R147 to R149, R161): with the freeze flag clear a frame of the form of the field
is stored and sent, with as many span lists as the standard has active lines; with it set the same frame is sent again; nothing
else changes. The form is MANUAL in IDLE, HELD and CUEING, without V and without a timeline position; otherwise it is LEAD-IN
before the record in, TRANSITION at step j from 0 to D − 1, and FLIP from there on. Each form has the selects, the level and the
spans of its row. Taking it is a part of the three commands that make a field start. -/
def Obligations.EffectsFrameEachField : Prop :=
  ∀ s : State, s.waiting.contains .effects = true →
    let t := takeField s .effects
    t = { s with effects := t.effects, waiting := s.waiting.erase .effects }
      ∧ t.effects.framesSent = s.effects.framesSent + 1 ∧ t.effects.manual = s.effects.manual
      ∧ t.effects.programme = s.effects.programme ∧ t.effects.freeze = s.effects.freeze
      ∧ (s.effects.freeze = true →
          t.effects.frame = s.effects.frame ∧ t.effects.form = s.effects.form ∧ t.effects.stepper = s.effects.stepper)
      ∧ (s.effects.freeze = false →
          t.effects.form = formOf s
            ∧ (t.effects.frame.lines.length = s.timeline.standard.lines)
            ∧ ((s.run.phase = .idle ∨ s.run.phase = .held ∨ s.run.phase = .cueing) →
                t.effects.frame = ⟨s.effects.manual, .black, 0, List.replicate s.timeline.standard.lines []⟩)
            ∧ (currentPosition s = none ∨ (∀ e, s.effects.programme = some e → e.record.tracks.v = false) →
                t.effects.form = .manual
                  ∧ t.effects.frame = ⟨s.effects.manual, .black, 0, List.replicate s.timeline.standard.lines []⟩)
            ∧ ∀ e p, s.effects.programme = some e → currentPosition s = some p →
                (s.run.phase = .rolling ∨ s.run.phase = .editing ∨ s.run.phase = .postroll) →
                e.record.tracks.v = true →
                let j := foldDiff (dayRec s) p e.record.recordIn
                let dark := List.replicate s.timeline.standard.lines ([] : List Span)
                let source1 := BusSelect.machine e.record.source1.machine
                (e.record.kind = .cut →
                    t.effects.form = (if j < 0 then .leadIn else .flip) ∧ t.effects.frame = ⟨source1, .black, 0, dark⟩)
                  ∧ ∀ x d, (e.record.kind = .mix ∨ e.record.kind = .wipe ∨ e.record.kind = .box) →
                    e.record.source2 = some x → e.record.transition = some d →
                    (j < 0 → t.effects.form = .leadIn ∧ t.effects.frame = ⟨.machine x.machine, source1, 0, dark⟩)
                      ∧ ((d : Int) ≤ j → 0 ≤ j → t.effects.form = .flip ∧ t.effects.frame = ⟨source1, .black, 0, dark⟩)
                      ∧ (0 ≤ j → j < (d : Int) →
                        t.effects.form = .transition j.toNat
                          ∧ t.effects.frame.aSelect = .machine x.machine ∧ t.effects.frame.bSelect = source1
                          ∧ t.effects.stepper
                              = some (stepperAt s.timeline.standard.lines e.record s.effects.stepper j.toNat)
                          ∧ (e.record.wipe = none →
                              t.effects.frame.lines = List.replicate s.timeline.standard.lines [⟨0, 720⟩]
                                ∧ ∀ r, t.effects.stepper = some r → t.effects.frame.level = r.output.toNat)
                          ∧ ∀ w, e.record.wipe = some w →
                              t.effects.frame.level = 256
                                ∧ ∀ r, t.effects.stepper = some r →
                                    t.effects.frame.lines = wipeLines s.timeline.standard.lines w e.record.box r.output))

/-! ### Shared arithmetic -/

/-- The folded difference of two positions of a domain: the raw difference with the day subtracted above half a day and added at
or below minus half a day; it lies above −day/2 and not above +day/2 (R12). The three days of the part are even. -/
def Obligations.FoldedDifferenceLiesInHalfDay : Prop :=
  ∀ (mode : LabelMode) (a b : Nat), a < mode.day → b < mode.day →
    let d := (a : Int) - (b : Int)
    let half := ((mode.day / 2 : Nat) : Int)
    (d > half → foldDiff mode.day a b = d - mode.day)
      ∧ (d ≤ -half → foldDiff mode.day a b = d + mode.day)
      ∧ (-half < d → d ≤ half → foldDiff mode.day a b = d)
      ∧ -half < foldDiff mode.day a b ∧ foldDiff mode.day a b ≤ half ∧ mode.day = 2 * (mode.day / 2)

/-- A valid label in NDF or mode 25 converts to the frame ((h×60+m)×60+s)×R + f and the field 2×frame + (field − 1); every valid
label names a distinct field number below the day (R6). -/
def Obligations.PlainLabelsConvertToFieldNumbers : Prop :=
  (∀ (mode : LabelMode) (r : Nat) (l : Label), ((mode = .ndf ∧ r = 30) ∨ (mode = .m25 ∧ r = 25)) →
      l.hours ≤ 23 → l.minutes ≤ 59 → l.seconds ≤ 59 → l.frames < r → (l.field = 1 ∨ l.field = 2) →
      consoleLabel mode l = some (2 * (((l.hours * 60 + l.minutes) * 60 + l.seconds) * r + l.frames) + (l.field - 1), false)
        ∧ fieldNumber mode l < mode.day
        ∧ ∀ l' : Label, labelInRange mode l' = true → fieldNumber mode l' = fieldNumber mode l → l' = l)
    ∧ frameNumber .ndf ⟨23, 59, 59, 29, 2⟩ = 2591999 ∧ fieldNumber .ndf ⟨23, 59, 59, 29, 2⟩ = 5183999
    ∧ frameNumber .m25 ⟨23, 59, 59, 24, 2⟩ = 2159999 ∧ fieldNumber .m25 ⟨23, 59, 59, 24, 2⟩ = 4319999

/-- In DF the label number of frame n is n + 18×D, plus 2×⌊(M−2)/1,798⌋ when M is 2 or more, with D and M the quotient and
remainder of n by 17,982, the frames of ten minutes of labels: each full block has skipped 18 labels, its first minute has 1,800
frames and each later one 1,798; the result never names a dropped label; the last frame of the day has D = 143 and M = 17,981, and
is 23:59:59;29 (R10). -/
def Obligations.DropFrameLabelNumbersSkipDropped : Prop :=
  (∀ n : Nat, n < 2589408 →
      let d := n / 17982
      let m := n % 17982
      (2 ≤ m → labelNumber .df n = n + 18 * d + 2 * ((m - 2) / 1798))
        ∧ (m < 2 → labelNumber .df n = n + 18 * d)
        ∧ labelNumber .df (n + 17982) = labelNumber .df n + 18000
        ∧ (labelOf .df (2 * n)).minutes % 10 = (if m < 1800 then 0 else 1 + (m - 1800) / 1798)
        ∧ isDropped .df (labelOf .df (2 * n)) = false ∧ isDropped .df (labelOf .df (2 * n + 1)) = false)
    ∧ 2589407 / 17982 = 143 ∧ 2589407 % 17982 = 17981
    ∧ labelNumber .df 2589407 = 2591999 ∧ labelOf .df (2 * 2589407) = ⟨23, 59, 59, 29, 1⟩

/-- Labels and positions convert back and forth: the label of a position is valid and names it, a valid label that is not dropped
returns, and a dropped label returns as the label with frame 2 of the same second (R6, R7, R9, R10). -/
def Obligations.LabelsAndPositionsConvertBack : Prop :=
  ∀ mode : LabelMode,
    (∀ n, n < mode.day → consoleLabel mode (labelOf mode n) = some (n, false))
      ∧ (∀ l, labelInRange mode l = true → isDropped mode l = false → labelOf mode (fieldNumber mode l) = l)
      ∧ ∀ l, labelInRange mode l = true → isDropped mode l = true →
          ∃ n, consoleLabel mode l = some (n, true) ∧ labelOf mode n = { l with frames := 2 }

/-- The stepper: loaded with start, advance A, step count N and bias w0, it has q = ⌊A/N⌋ and r = A − q × N; after i steps its
output is start + q × i + max(0, ⌈(i × r − w0)/N⌉), so start + A after N; each step changes the output by q or q + 1, and the
working value by −r, with N added when it is then below 0, so that it never is (R152). The field stepper is loaded at step 0 of a
TRANSITION and advanced one step at each later one (R153): for a MIX from 0 to 256 over D steps (R154), for a wipe from c_start to
c_end (R155), each with bias ⌊D/2⌋. The line stepper, loaded for each frame and advanced once for each line, gives the offset
⌊l × sx / sy⌋ of the edge on line l, whose column is clamped to 0 to 720 (R156). -/
def Obligations.StepperOutputsRoundedRamp : Prop :=
  (∀ (start a : Int) (n : Nat) (w0 : Int), 1 ≤ n → 0 ≤ w0 → w0 < (n : Int) →
      let t := loadStepper start a n w0
      t.quotient = a / (n : Int) ∧ t.remainder = a - t.quotient * (n : Int) ∧ 0 ≤ t.remainder ∧ t.remainder < (n : Int)
        ∧ t.output = start ∧ t.working = w0 ∧ t.step = 0
        ∧ (∀ i : Nat,
            (t.advanceBy i).output
                = start + t.quotient * (i : Int) + max 0 (-((w0 - (i : Int) * t.remainder) / (n : Int)))
              ∧ (t.advanceBy i).step = i ∧ 0 ≤ (t.advanceBy i).working
              ∧ (t.advanceBy (i + 1)).working
                  = (t.advanceBy i).working - t.remainder
                    + (if (t.advanceBy i).working - t.remainder < 0 then (n : Int) else 0)
              ∧ ((t.advanceBy (i + 1)).output = (t.advanceBy i).output + t.quotient
                  ∨ (t.advanceBy (i + 1)).output = (t.advanceBy i).output + t.quotient + 1)
              ∧ (0 ≤ a → (t.advanceBy i).output ≤ (t.advanceBy (i + 1)).output))
        ∧ (t.advanceBy n).output = start + a)
    ∧ (∀ (lines : Nat) (r : Record) (held : Option Stepper), stepperAt lines r held 0 = loadField lines r)
    ∧ (∀ (lines : Nat) (r : Record) (t : Stepper) (j : Nat), t.step = j →
        stepperAt lines r (some t) (j + 1) = t.advance)
    ∧ (∀ (lines : Nat) (r : Record),
        let d := r.transition.getD 0
        (r.wipe = none → loadField lines r = loadStepper 0 256 d ((d / 2 : Nat) : Int))
          ∧ ∀ w, r.wipe = some w →
            let run := ((lines : Int) - 1) * w.sx / ((w.sy : Nat) : Int)
            let first := -(max 0 run)
            let last := 720 - min 0 run
            loadField lines r = loadStepper first (last - first) d ((d / 2 : Nat) : Int))
    ∧ (∀ (c : Int) (n k : Nat) (w : Wipe), k < n → 1 ≤ w.sy →
        (edgesFrom c n (loadLine w))[k]?
          = some (max 0 (min 720 (c + (k : Int) * w.sx / ((w.sy : Nat) : Int)))).toNat)
    ∧ ∀ (lines j : Nat) (manual : BusSelect) (r : Record) (t : Stepper),
        (r.wipe = none → (frameOf lines manual (some r) (.transition j) t).level = t.output.toNat)
          ∧ ∀ w, r.wipe = some w →
              (frameOf lines manual (some r) (.transition j) t).lines
                = spansFrom w r.box 0 (edgesFrom t.output lines (loadLine w))

/-- A column shows B exactly where a span covers it: the span list of a line of a WIPE or BOX holds at most two spans, ascending,
disjoint, not empty and within the picture, and a column from 0 to 719 lies in one of them exactly when the mask's weight of its
region (neither 1, key 2, wiped 4, both 8), or for a WIPE the wiped side, says B (R157 to R160). -/
def Obligations.SpansCoverColumnsOfB : Prop :=
  (∀ (w : Wipe) (box : Option KeyBox) (line x : Nat), x ≤ 720 →
      (∀ b, box = some b → b.kx0 < b.kx1 ∧ b.kx1 ≤ 720) →
      let spans := lineSpans w box line x
      let wiped := fun c : Nat => if w.reverse then 720 - x ≤ c else c < x
      let key := fun (b : KeyBox) (c : Nat) => b.ky0 ≤ line ∧ line < b.ky1 ∧ b.kx0 ≤ c ∧ c < b.kx1
      spans.length ≤ 2 ∧ spans.Pairwise (fun a b => a.stop < b.start)
        ∧ (∀ a ∈ spans, a.start < a.stop ∧ a.stop ≤ 720)
        ∧ ∀ c, c < 720 →
          (box = none → ((∃ a ∈ spans, a.start ≤ c ∧ c < a.stop) ↔ wiped c))
            ∧ ∀ b, box = some b →
              ((∃ a ∈ spans, a.start ≤ c ∧ c < a.stop)
                ↔ (¬ wiped c ∧ ¬ key b c ∧ b.mask.testBit 0 = true) ∨ (¬ wiped c ∧ key b c ∧ b.mask.testBit 1 = true)
                  ∨ (wiped c ∧ ¬ key b c ∧ b.mask.testBit 2 = true) ∨ (wiped c ∧ key b c ∧ b.mask.testBit 3 = true)))
    ∧ ∀ (b : KeyBox) (wiped key : Bool),
        (b.mask = 12 → showsB (some b) wiped key = showsB none wiped key)
          ∧ (b.mask = 3 → showsB (some b) wiped key = !wiped) ∧ (b.mask = 6 → showsB (some b) wiped key = (wiped != key))
          ∧ (b.mask = 10 → showsB (some b) wiped key = key) ∧ (b.mask = 15 → showsB (some b) wiped key = true)
          ∧ (b.mask = 0 → showsB (some b) wiped key = false)
end

