-- ==== Sys2Proof/Laws/State.lean ====
section
/-! SUPPORT. What each update of the state leaves in each field, one lemma per field per update, and the bank's own laws: a
later proof rewrites with these and unfolds no record update. -/

namespace Sys2Proof

variable {α : Type}

/-! ### Banks -/

@[simp] theorem Bank.get_set_self (b : Bank α) (i : Unit8) (x : α) : (b.set i x).get i = x := by cases i <;> rfl

theorem Bank.get_set_other (b : Bank α) {i j : Unit8} (x : α) (h : j ≠ i) : (b.set i x).get j = b.get j := by
  cases i <;> cases j <;> first | rfl | exact absurd rfl h

theorem Bank.get_set (b : Bank α) (i j : Unit8) (x : α) : (b.set i x).get j = if j = i then x else b.get j := by
  split
  next h => rw [h, Bank.get_set_self]
  next h => exact Bank.get_set_other b x h

@[simp] theorem Bank.get_map (b : Bank α) (f : α → α) (i : Unit8) : (b.map f).get i = f (b.get i) := by cases i <;> rfl

@[simp] theorem Bank.get_fill (x : α) (i : Unit8) : (Bank.fill x).get i = x := by cases i <;> rfl

@[simp] theorem Bank.set_get (b : Bank α) (i : Unit8) : b.set i (b.get i) = b := by cases i <;> rfl

@[simp] theorem Bank.set_set (b : Bank α) (i : Unit8) (x y : α) : (b.set i x).set i y = b.set i y := by cases i <;> rfl

/-- Two banks that agree at every unit are one. -/
theorem Bank.ext_get {b c : Bank α} (h : ∀ i, b.get i = c.get i) : b = c := by
  cases b; cases c
  simp only [Bank.mk.injEq]
  exact ⟨h .u0, h .u1, h .u2, h .u3, h .u4, h .u5, h .u6, h .u7⟩

theorem Unit8.mem_all (i : Unit8) : i ∈ Unit8.all := by cases i <;> decide

theorem Unit8.ofNat?_toNat (i : Unit8) : Unit8.ofNat? i.toNat = some i := by cases i <;> rfl

theorem Unit8.all_nodup : Unit8.all.Nodup := by decide

namespace Machine

/-! ### Field by field -/

section setPort
variable (s : State) (m : MachineId) (p : Port)

@[simp] theorem State.setPort_inReset : (s.setPort m p).inReset = s.inReset := rfl
@[simp] theorem State.setPort_now : (s.setPort m p).now = s.now := rfl
@[simp] theorem State.setPort_timeline : (s.setPort m p).timeline = s.timeline := rfl
@[simp] theorem State.setPort_store : (s.setPort m p).store = s.store := rfl
@[simp] theorem State.setPort_ports : (s.setPort m p).ports = s.ports.set m p := rfl
@[simp] theorem State.setPort_machines : (s.setPort m p).machines = s.machines := rfl
@[simp] theorem State.setPort_recorder : (s.setPort m p).recorder = s.recorder := rfl
@[simp] theorem State.setPort_run : (s.setPort m p).run = s.run := rfl
@[simp] theorem State.setPort_runParams : (s.setPort m p).runParams = s.runParams := rfl
@[simp] theorem State.setPort_effects : (s.setPort m p).effects = s.effects := rfl
@[simp] theorem State.setPort_cues : (s.setPort m p).cues = s.cues := rfl
@[simp] theorem State.setPort_console : (s.setPort m p).console = s.console := rfl
@[simp] theorem State.setPort_waiting : (s.setPort m p).waiting = s.waiting := rfl
@[simp] theorem State.setPort_pending : (s.setPort m p).pending = s.pending := rfl

end setPort

section setMachine
variable (s : State) (m : MachineId) (r : MachineRec)

@[simp] theorem State.setMachine_inReset : (s.setMachine m r).inReset = s.inReset := rfl
@[simp] theorem State.setMachine_now : (s.setMachine m r).now = s.now := rfl
@[simp] theorem State.setMachine_timeline : (s.setMachine m r).timeline = s.timeline := rfl
@[simp] theorem State.setMachine_store : (s.setMachine m r).store = s.store := rfl
@[simp] theorem State.setMachine_ports : (s.setMachine m r).ports = s.ports := rfl
@[simp] theorem State.setMachine_machines : (s.setMachine m r).machines = s.machines.set m r := rfl
@[simp] theorem State.setMachine_recorder : (s.setMachine m r).recorder = s.recorder := rfl
@[simp] theorem State.setMachine_run : (s.setMachine m r).run = s.run := rfl
@[simp] theorem State.setMachine_runParams : (s.setMachine m r).runParams = s.runParams := rfl
@[simp] theorem State.setMachine_effects : (s.setMachine m r).effects = s.effects := rfl
@[simp] theorem State.setMachine_cues : (s.setMachine m r).cues = s.cues := rfl
@[simp] theorem State.setMachine_console : (s.setMachine m r).console = s.console := rfl
@[simp] theorem State.setMachine_waiting : (s.setMachine m r).waiting = s.waiting := rfl
@[simp] theorem State.setMachine_pending : (s.setMachine m r).pending = s.pending := rfl

end setMachine

section updateRun
variable (s : State) (f : RunRecord → RunRecord)

@[simp] theorem State.updateRun_inReset : (s.updateRun f).inReset = s.inReset := rfl
@[simp] theorem State.updateRun_now : (s.updateRun f).now = s.now := rfl
@[simp] theorem State.updateRun_timeline : (s.updateRun f).timeline = s.timeline := rfl
@[simp] theorem State.updateRun_store : (s.updateRun f).store = s.store := rfl
@[simp] theorem State.updateRun_ports : (s.updateRun f).ports = s.ports := rfl
@[simp] theorem State.updateRun_machines : (s.updateRun f).machines = s.machines := rfl
@[simp] theorem State.updateRun_recorder : (s.updateRun f).recorder = s.recorder := rfl
@[simp] theorem State.updateRun_run : (s.updateRun f).run = f s.run := rfl
@[simp] theorem State.updateRun_runParams : (s.updateRun f).runParams = s.runParams := rfl
@[simp] theorem State.updateRun_effects : (s.updateRun f).effects = s.effects := rfl
@[simp] theorem State.updateRun_cues : (s.updateRun f).cues = s.cues := rfl
@[simp] theorem State.updateRun_console : (s.updateRun f).console = s.console := rfl
@[simp] theorem State.updateRun_waiting : (s.updateRun f).waiting = s.waiting := rfl
@[simp] theorem State.updateRun_pending : (s.updateRun f).pending = s.pending := rfl

end updateRun

section updateTimeline
variable (s : State) (f : Timeline → Timeline)

@[simp] theorem State.updateTimeline_inReset : (s.updateTimeline f).inReset = s.inReset := rfl
@[simp] theorem State.updateTimeline_now : (s.updateTimeline f).now = s.now := rfl
@[simp] theorem State.updateTimeline_timeline : (s.updateTimeline f).timeline = f s.timeline := rfl
@[simp] theorem State.updateTimeline_store : (s.updateTimeline f).store = s.store := rfl
@[simp] theorem State.updateTimeline_ports : (s.updateTimeline f).ports = s.ports := rfl
@[simp] theorem State.updateTimeline_machines : (s.updateTimeline f).machines = s.machines := rfl
@[simp] theorem State.updateTimeline_recorder : (s.updateTimeline f).recorder = s.recorder := rfl
@[simp] theorem State.updateTimeline_run : (s.updateTimeline f).run = s.run := rfl
@[simp] theorem State.updateTimeline_runParams : (s.updateTimeline f).runParams = s.runParams := rfl
@[simp] theorem State.updateTimeline_effects : (s.updateTimeline f).effects = s.effects := rfl
@[simp] theorem State.updateTimeline_cues : (s.updateTimeline f).cues = s.cues := rfl
@[simp] theorem State.updateTimeline_console : (s.updateTimeline f).console = s.console := rfl
@[simp] theorem State.updateTimeline_waiting : (s.updateTimeline f).waiting = s.waiting := rfl
@[simp] theorem State.updateTimeline_pending : (s.updateTimeline f).pending = s.pending := rfl

end updateTimeline

section updateEffects
variable (s : State) (f : EffectsGenerator → EffectsGenerator)

@[simp] theorem State.updateEffects_inReset : (s.updateEffects f).inReset = s.inReset := rfl
@[simp] theorem State.updateEffects_now : (s.updateEffects f).now = s.now := rfl
@[simp] theorem State.updateEffects_timeline : (s.updateEffects f).timeline = s.timeline := rfl
@[simp] theorem State.updateEffects_store : (s.updateEffects f).store = s.store := rfl
@[simp] theorem State.updateEffects_ports : (s.updateEffects f).ports = s.ports := rfl
@[simp] theorem State.updateEffects_machines : (s.updateEffects f).machines = s.machines := rfl
@[simp] theorem State.updateEffects_recorder : (s.updateEffects f).recorder = s.recorder := rfl
@[simp] theorem State.updateEffects_run : (s.updateEffects f).run = s.run := rfl
@[simp] theorem State.updateEffects_runParams : (s.updateEffects f).runParams = s.runParams := rfl
@[simp] theorem State.updateEffects_effects : (s.updateEffects f).effects = f s.effects := rfl
@[simp] theorem State.updateEffects_cues : (s.updateEffects f).cues = s.cues := rfl
@[simp] theorem State.updateEffects_console : (s.updateEffects f).console = s.console := rfl
@[simp] theorem State.updateEffects_waiting : (s.updateEffects f).waiting = s.waiting := rfl
@[simp] theorem State.updateEffects_pending : (s.updateEffects f).pending = s.pending := rfl

end updateEffects

section updateCues
variable (s : State) (f : CueUnit → CueUnit)

@[simp] theorem State.updateCues_inReset : (s.updateCues f).inReset = s.inReset := rfl
@[simp] theorem State.updateCues_now : (s.updateCues f).now = s.now := rfl
@[simp] theorem State.updateCues_timeline : (s.updateCues f).timeline = s.timeline := rfl
@[simp] theorem State.updateCues_store : (s.updateCues f).store = s.store := rfl
@[simp] theorem State.updateCues_ports : (s.updateCues f).ports = s.ports := rfl
@[simp] theorem State.updateCues_machines : (s.updateCues f).machines = s.machines := rfl
@[simp] theorem State.updateCues_recorder : (s.updateCues f).recorder = s.recorder := rfl
@[simp] theorem State.updateCues_run : (s.updateCues f).run = s.run := rfl
@[simp] theorem State.updateCues_runParams : (s.updateCues f).runParams = s.runParams := rfl
@[simp] theorem State.updateCues_effects : (s.updateCues f).effects = s.effects := rfl
@[simp] theorem State.updateCues_cues : (s.updateCues f).cues = f s.cues := rfl
@[simp] theorem State.updateCues_console : (s.updateCues f).console = s.console := rfl
@[simp] theorem State.updateCues_waiting : (s.updateCues f).waiting = s.waiting := rfl
@[simp] theorem State.updateCues_pending : (s.updateCues f).pending = s.pending := rfl

end updateCues

section updateConsole
variable (s : State) (f : ConsolePort → ConsolePort)

@[simp] theorem State.updateConsole_inReset : (s.updateConsole f).inReset = s.inReset := rfl
@[simp] theorem State.updateConsole_now : (s.updateConsole f).now = s.now := rfl
@[simp] theorem State.updateConsole_timeline : (s.updateConsole f).timeline = s.timeline := rfl
@[simp] theorem State.updateConsole_store : (s.updateConsole f).store = s.store := rfl
@[simp] theorem State.updateConsole_ports : (s.updateConsole f).ports = s.ports := rfl
@[simp] theorem State.updateConsole_machines : (s.updateConsole f).machines = s.machines := rfl
@[simp] theorem State.updateConsole_recorder : (s.updateConsole f).recorder = s.recorder := rfl
@[simp] theorem State.updateConsole_run : (s.updateConsole f).run = s.run := rfl
@[simp] theorem State.updateConsole_runParams : (s.updateConsole f).runParams = s.runParams := rfl
@[simp] theorem State.updateConsole_effects : (s.updateConsole f).effects = s.effects := rfl
@[simp] theorem State.updateConsole_cues : (s.updateConsole f).cues = s.cues := rfl
@[simp] theorem State.updateConsole_console : (s.updateConsole f).console = f s.console := rfl
@[simp] theorem State.updateConsole_waiting : (s.updateConsole f).waiting = s.waiting := rfl
@[simp] theorem State.updateConsole_pending : (s.updateConsole f).pending = s.pending := rfl

end updateConsole

section withPending
variable (s : State) (cs : List Instr)

@[simp] theorem State.withPending_inReset : (s.withPending cs).inReset = s.inReset := rfl
@[simp] theorem State.withPending_now : (s.withPending cs).now = s.now := rfl
@[simp] theorem State.withPending_timeline : (s.withPending cs).timeline = s.timeline := rfl
@[simp] theorem State.withPending_store : (s.withPending cs).store = s.store := rfl
@[simp] theorem State.withPending_ports : (s.withPending cs).ports = s.ports := rfl
@[simp] theorem State.withPending_machines : (s.withPending cs).machines = s.machines := rfl
@[simp] theorem State.withPending_recorder : (s.withPending cs).recorder = s.recorder := rfl
@[simp] theorem State.withPending_run : (s.withPending cs).run = s.run := rfl
@[simp] theorem State.withPending_runParams : (s.withPending cs).runParams = s.runParams := rfl
@[simp] theorem State.withPending_effects : (s.withPending cs).effects = s.effects := rfl
@[simp] theorem State.withPending_cues : (s.withPending cs).cues = s.cues := rfl
@[simp] theorem State.withPending_console : (s.withPending cs).console = s.console := rfl
@[simp] theorem State.withPending_waiting : (s.withPending cs).waiting = s.waiting := rfl
@[simp] theorem State.withPending_pending : (s.withPending cs).pending = cs := rfl

end withPending

/-! ### Ports, records and lines -/

section units
variable (s : State)

@[simp] theorem State.setPort_port (m : MachineId) (p : Port) : (s.setPort m p).port m = p := Bank.get_set_self ..

theorem State.setPort_port_other {m n : MachineId} (p : Port) (h : n ≠ m) : (s.setPort m p).port n = s.port n :=
  Bank.get_set_other _ _ h

@[simp] theorem State.setPort_machine (m n : MachineId) (p : Port) : (s.setPort m p).machine n = s.machine n := rfl

@[simp] theorem State.setMachine_machine (m : MachineId) (r : MachineRec) : (s.setMachine m r).machine m = r :=
  Bank.get_set_self ..

theorem State.setMachine_machine_other {m n : MachineId} (r : MachineRec) (h : n ≠ m) :
    (s.setMachine m r).machine n = s.machine n := Bank.get_set_other _ _ h

@[simp] theorem State.setMachine_port (m n : MachineId) (r : MachineRec) : (s.setMachine m r).port n = s.port n := rfl

@[simp] theorem State.setMachine_link (m n : MachineId) (r : MachineRec) : (s.setMachine m r).link n = s.link n := rfl

@[simp] theorem State.setPort_link (m : MachineId) (p : Port) : (s.setPort m p).link m = p.link := by
  simp [State.link]

theorem State.setPort_link_other {m n : MachineId} (p : Port) (h : n ≠ m) : (s.setPort m p).link n = s.link n := by
  simp [State.link, State.setPort_port_other s p h]

@[simp] theorem setCueLine_cueLine (g : CueLineId) (l : CueLine) : (setCueLine s g l).cueLine g = l :=
  Bank.get_set_self ..

theorem setCueLine_cueLine_other {g k : CueLineId} (l : CueLine) (h : k ≠ g) :
    (setCueLine s g l).cueLine k = s.cueLine k := Bank.get_set_other _ _ h

@[simp] theorem State.updateRun_port (f : RunRecord → RunRecord) (m : MachineId) : (s.updateRun f).port m = s.port m := rfl
@[simp] theorem State.updateRun_machine (f : RunRecord → RunRecord) (m : MachineId) : (s.updateRun f).machine m = s.machine m := rfl
@[simp] theorem State.updateRun_link (f : RunRecord → RunRecord) (m : MachineId) : (s.updateRun f).link m = s.link m := rfl
@[simp] theorem State.updateRun_cueLine (f : RunRecord → RunRecord) (g : CueLineId) : (s.updateRun f).cueLine g = s.cueLine g := rfl
@[simp] theorem State.updateRun_stopAsserted (f : RunRecord → RunRecord) : (s.updateRun f).stopAsserted = s.stopAsserted := rfl

@[simp] theorem State.updateTimeline_port (f : Timeline → Timeline) (m : MachineId) : (s.updateTimeline f).port m = s.port m := rfl
@[simp] theorem State.updateTimeline_machine (f : Timeline → Timeline) (m : MachineId) : (s.updateTimeline f).machine m = s.machine m := rfl
@[simp] theorem State.updateTimeline_link (f : Timeline → Timeline) (m : MachineId) : (s.updateTimeline f).link m = s.link m := rfl
@[simp] theorem State.updateTimeline_cueLine (f : Timeline → Timeline) (g : CueLineId) : (s.updateTimeline f).cueLine g = s.cueLine g := rfl
@[simp] theorem State.updateTimeline_stopAsserted (f : Timeline → Timeline) : (s.updateTimeline f).stopAsserted = s.stopAsserted := rfl

@[simp] theorem State.updateEffects_port (f : EffectsGenerator → EffectsGenerator) (m : MachineId) : (s.updateEffects f).port m = s.port m := rfl
@[simp] theorem State.updateEffects_machine (f : EffectsGenerator → EffectsGenerator) (m : MachineId) : (s.updateEffects f).machine m = s.machine m := rfl
@[simp] theorem State.updateEffects_link (f : EffectsGenerator → EffectsGenerator) (m : MachineId) : (s.updateEffects f).link m = s.link m := rfl
@[simp] theorem State.updateEffects_cueLine (f : EffectsGenerator → EffectsGenerator) (g : CueLineId) : (s.updateEffects f).cueLine g = s.cueLine g := rfl
@[simp] theorem State.updateEffects_stopAsserted (f : EffectsGenerator → EffectsGenerator) : (s.updateEffects f).stopAsserted = s.stopAsserted := rfl

@[simp] theorem State.updateCues_port (f : CueUnit → CueUnit) (m : MachineId) : (s.updateCues f).port m = s.port m := rfl
@[simp] theorem State.updateCues_machine (f : CueUnit → CueUnit) (m : MachineId) : (s.updateCues f).machine m = s.machine m := rfl
@[simp] theorem State.updateCues_link (f : CueUnit → CueUnit) (m : MachineId) : (s.updateCues f).link m = s.link m := rfl

@[simp] theorem State.updateConsole_port (f : ConsolePort → ConsolePort) (m : MachineId) : (s.updateConsole f).port m = s.port m := rfl
@[simp] theorem State.updateConsole_machine (f : ConsolePort → ConsolePort) (m : MachineId) : (s.updateConsole f).machine m = s.machine m := rfl
@[simp] theorem State.updateConsole_link (f : ConsolePort → ConsolePort) (m : MachineId) : (s.updateConsole f).link m = s.link m := rfl
@[simp] theorem State.updateConsole_cueLine (f : ConsolePort → ConsolePort) (g : CueLineId) : (s.updateConsole f).cueLine g = s.cueLine g := rfl
@[simp] theorem State.updateConsole_stopAsserted (f : ConsolePort → ConsolePort) : (s.updateConsole f).stopAsserted = s.stopAsserted := rfl

@[simp] theorem State.withPending_port (cs : List Instr) (m : MachineId) : (s.withPending cs).port m = s.port m := rfl
@[simp] theorem State.withPending_machine (cs : List Instr) (m : MachineId) : (s.withPending cs).machine m = s.machine m := rfl
@[simp] theorem State.withPending_link (cs : List Instr) (m : MachineId) : (s.withPending cs).link m = s.link m := rfl
@[simp] theorem State.withPending_cueLine (cs : List Instr) (g : CueLineId) : (s.withPending cs).cueLine g = s.cueLine g := rfl
@[simp] theorem State.withPending_stopAsserted (cs : List Instr) : (s.withPending cs).stopAsserted = s.stopAsserted := rfl

end units

end Machine

end Sys2Proof
end

