-- ==== Sys2Proof/Laws/Console.lean ====
section
/-! SUPPORT. What raising a notice and placing a reply can do (R183, R186, R187): everything but the notice queue and its
overflow flag stays, the queue stays within its 32 places, and the notice waits or was dropped. -/

namespace Sys2Proof.Machine

/-! ### The notice queue -/

theorem eraseFirst_length {α : Type} (p : α → Bool) (l : List α) (h : l.any p = true) :
    (eraseFirst p l).length + 1 = l.length := by
  induction l with
  | nil => simp at h
  | cons x xs ih =>
    by_cases hx : p x = true
    · simp [eraseFirst, hx]
    · have hxs : xs.any p = true := by simpa [hx] using h
      simp [eraseFirst, hx, ih hxs]

theorem mem_eraseFirst {α : Type} {p : α → Bool} {l : List α} {x : α} (h : x ∈ l) (hp : p x = false) :
    x ∈ eraseFirst p l := by
  induction l with
  | nil => simp at h
  | cons y ys ih =>
    rcases List.mem_cons.mp h with rfl | hm
    · simp [eraseFirst, hp]
    · by_cases hy : p y = true
      · simp [eraseFirst, hy, hm]
      · simp [eraseFirst, hy, ih hm]

theorem Notice.isStateOf_iff (m : MachineId) (n : Notice) : n.isStateOf m = true ↔ n.stateMachine? = some m := by
  cases n <;> simp [Notice.isStateOf, Notice.stateMachine?]

/-- Placing a notice changes the notice queue and the overflow flag alone. -/
theorem ConsolePort.place_frame (c : ConsolePort) (n : Notice) :
    c.place n = { c with notices := (c.place n).notices, overflow := (c.place n).overflow } := by
  unfold ConsolePort.place
  split <;> (try split) <;> (try split) <;> rfl

@[simp] theorem ConsolePort.place_inbound (c : ConsolePort) (n : Notice) : (c.place n).inbound = c.inbound := by
  rw [ConsolePort.place_frame]

@[simp] theorem ConsolePort.place_replies (c : ConsolePort) (n : Notice) : (c.place n).replies = c.replies := by
  rw [ConsolePort.place_frame]

@[simp] theorem ConsolePort.place_overrun (c : ConsolePort) (n : Notice) : (c.place n).overrun = c.overrun := by
  rw [ConsolePort.place_frame]

@[simp] theorem ConsolePort.place_transfer (c : ConsolePort) (n : Notice) : (c.place n).transfer = c.transfer := by
  rw [ConsolePort.place_frame]

@[simp] theorem ConsolePort.place_sent (c : ConsolePort) (n : Notice) : (c.place n).sent = c.sent := by
  rw [ConsolePort.place_frame]

/-- The notice queue never grows past its capacity (R186, R187). -/
theorem ConsolePort.place_fits (c : ConsolePort) (n : Notice) (h : c.notices.length ≤ Config.noticeCapacity) :
    (c.place n).notices.length ≤ Config.noticeCapacity := by
  unfold ConsolePort.place
  split
  · rename_i m _
    split
    · rename_i hany
      have he := eraseFirst_length _ _ hany
      simp only [List.length_append, List.length_take, List.length_drop, List.length_cons, List.length_nil] at he ⊢
      omega
    · split
      · simp only [List.length_append, List.length_cons, List.length_nil]; omega
      · exact h
  · split
    · simp only [List.length_append, List.length_cons, List.length_nil]; omega
    · exact h

/-- A notice that was placed waits, or the overflow flag says that it was dropped (R186, R187). -/
theorem ConsolePort.place_placed (c : ConsolePort) (n : Notice) : n ∈ (c.place n).notices ∨ (c.place n).overflow = true := by
  unfold ConsolePort.place
  split <;> (try split) <;> (try split) <;> simp

/-- A notice that is no MACHINE_STATE stays in its place when another is placed: it is never coalesced (R186). -/
theorem ConsolePort.place_keeps (c : ConsolePort) (n k : Notice) (h : k ∈ c.notices) (hk : k.stateMachine? = none) :
    k ∈ (c.place n).notices := by
  unfold ConsolePort.place
  split
  · rename_i m _
    split
    · have hs : Notice.isStateOf m k = false := by
        cases hb : Notice.isStateOf m k
        · rfl
        · rw [Notice.isStateOf_iff, hk] at hb; simp at hb
      rw [← List.take_append_drop c.noticesOnLink c.notices] at h
      rcases List.mem_append.mp h with ht | hd
      · simp [ht]
      · simp [mem_eraseFirst hd hs]
    · split <;> simp [h]
  · split <;> simp [h]

/-- The overflow flag, once set, stays set while notices are placed. -/
theorem ConsolePort.place_overflow (c : ConsolePort) (n : Notice) (h : c.overflow = true) : (c.place n).overflow = true := by
  unfold ConsolePort.place
  split <;> (try split) <;> (try split) <;> simp [h]

/-! ### Raising a notice -/

section raise
variable (s : State) (n : Notice)

@[simp] theorem raiseNotice_inReset : (raiseNotice s n).inReset = s.inReset := rfl
@[simp] theorem raiseNotice_now : (raiseNotice s n).now = s.now := rfl
@[simp] theorem raiseNotice_timeline : (raiseNotice s n).timeline = s.timeline := rfl
@[simp] theorem raiseNotice_store : (raiseNotice s n).store = s.store := rfl
@[simp] theorem raiseNotice_ports : (raiseNotice s n).ports = s.ports := rfl
@[simp] theorem raiseNotice_machines : (raiseNotice s n).machines = s.machines := rfl
@[simp] theorem raiseNotice_recorder : (raiseNotice s n).recorder = s.recorder := rfl
@[simp] theorem raiseNotice_run : (raiseNotice s n).run = s.run := rfl
@[simp] theorem raiseNotice_runParams : (raiseNotice s n).runParams = s.runParams := rfl
@[simp] theorem raiseNotice_effects : (raiseNotice s n).effects = s.effects := rfl
@[simp] theorem raiseNotice_cues : (raiseNotice s n).cues = s.cues := rfl
@[simp] theorem raiseNotice_waiting : (raiseNotice s n).waiting = s.waiting := rfl
@[simp] theorem raiseNotice_pending : (raiseNotice s n).pending = s.pending := rfl
@[simp] theorem raiseNotice_console : (raiseNotice s n).console = s.console.place n := rfl
@[simp] theorem raiseNotice_port (m : MachineId) : (raiseNotice s n).port m = s.port m := rfl
@[simp] theorem raiseNotice_machine (m : MachineId) : (raiseNotice s n).machine m = s.machine m := rfl
@[simp] theorem raiseNotice_link (m : MachineId) : (raiseNotice s n).link m = s.link m := rfl
@[simp] theorem raiseNotice_cueLine (g : CueLineId) : (raiseNotice s n).cueLine g = s.cueLine g := rfl
@[simp] theorem raiseNotice_stopAsserted : (raiseNotice s n).stopAsserted = s.stopAsserted := rfl

theorem raiseNotice_onlyNotices : OnlyNotices s (raiseNotice s n) := ConsolePort.place_frame _ _

theorem raiseNotice_noticed : Noticed (raiseNotice s n) n := ConsolePort.place_placed _ _

/-- A notice that is no MACHINE_STATE and has been raised still waits, or the overflow flag is set, after the next one. -/
theorem raiseNotice_keeps {k : Notice} (hk : k.stateMachine? = none) (h : Noticed s k) : Noticed (raiseNotice s n) k := by
  rcases h with h | h
  · exact .inl (ConsolePort.place_keeps _ _ _ h hk)
  · exact .inr (ConsolePort.place_overflow _ _ h)

end raise

theorem OnlyNotices.refl (s : State) : OnlyNotices s s := rfl

theorem OnlyNotices.trans {s t u : State} (h : OnlyNotices s t) (k : OnlyNotices t u) : OnlyNotices s u := by
  unfold OnlyNotices at *
  rw [k, h]

/-! ### The data line -/

/-- The bytes sent while n are clocked are the message's, then filler (R179, R195). -/
theorem Transfer.sentBytes_eq (t : Transfer) (n : Nat) : t.sentBytes n = dataOut t.outgoing n := by
  refine List.ext_getElem ?_ (fun i hi hk => ?_)
  · simp only [sentBytes, dataOut, List.length_append, List.length_take, List.length_replicate, List.length_map,
      List.length_range]
    omega
  · simp only [dataOut, List.getElem_map, List.getElem_range]
    by_cases h : i < t.outgoing.length
    · have hl : i < (t.outgoing.take n).length := by
        simp only [dataOut, List.length_map, List.length_range] at hk
        simp only [List.length_take]; omega
      simp [sentBytes, List.getElem_append_left hl, List.getD_eq_getElem?_getD, h]
    · have hl : (t.outgoing.take n).length ≤ i := by simp only [List.length_take]; omega
      simp [sentBytes, List.getElem_append_right hl, List.getD_eq_getElem?_getD, fillerByte,
        List.getElem?_eq_none (Nat.le_of_not_lt h)]

/-! ### Replies -/

/-- Placing a reply adds it at the tail of the reply queue, and changes nothing else (R183). -/
theorem placeReply_spec (s : State) (r : Reply) :
    placeReply s r = { s with console := { s.console with replies := s.console.replies ++ [r] } } := rfl

end Sys2Proof.Machine
end

