-- ==== Sys2Proof/Laws/Ports.lean ====
section
/-! SUPPORT. What the operations of a machine port can do to it (R75, R83 to R85, R87): each changes the fields it names and
no other, and each keeps the queue within 4 requests with one motion request at most, and the CTL counts in their ranges. -/

namespace Sys2Proof.Machine

/-! ### Motion requests in a queue -/

@[simp] theorem motions_nil : motions [] = 0 := rfl

theorem motions_cons (x : QueuedRequest) (q : List QueuedRequest) :
    motions (x :: q) = (if x.request.isMotion then 1 else 0) + motions q := by
  simp only [motions, List.filter_cons]
  split <;> simp [Nat.add_comm]

@[simp] theorem motions_append (a b : List QueuedRequest) : motions (a ++ b) = motions a + motions b := by
  simp [motions]

theorem motions_eq_zero {q : List QueuedRequest} (h : q.any (fun x => x.request.isMotion) = false) : motions q = 0 := by
  simp only [motions, List.length_eq_zero_iff, List.filter_eq_nil_iff]
  intro x hx hm
  simp only [List.any_eq_false] at h
  exact h x hx hm

theorem motions_filter_le (p : QueuedRequest → Bool) (q : List QueuedRequest) : motions (q.filter p) ≤ motions q := by
  unfold motions
  rw [List.filter_filter]
  induction q with
  | nil => simp
  | cons x xs ih =>
    simp only [List.filter_cons]
    split <;> split <;> simp_all <;> omega

theorem motions_drop_le (n : Nat) (q : List QueuedRequest) : motions (q.drop n) ≤ motions q := by
  induction n generalizing q with
  | zero => simp
  | succ n ih =>
    cases q with
    | nil => simp
    | cons x xs =>
      have h := ih xs
      rw [motions_cons]
      simp only [List.drop_succ_cons]
      omega

@[simp] theorem replaceMotion_length (r : QueuedRequest) (q : List QueuedRequest) :
    (replaceMotion r q).length = q.length := by
  induction q with
  | nil => rfl
  | cons x xs ih => unfold replaceMotion; split <;> simp [ih]

theorem replaceMotion_motions {r : QueuedRequest} (hr : r.request.isMotion = true) {q : List QueuedRequest} :
    motions (replaceMotion r q) = motions q := by
  induction q with
  | nil => rfl
  | cons x xs ih =>
    unfold replaceMotion
    split
    · rename_i hx; simp [motions_cons, hr, hx]
    · simp [motions_cons, ih]

/-! ### Placing -/

/-- A motion request is held only by an ONLINE port, and it changes the queue and the mark of the request on the line alone
(R71, R84). -/
theorem Port.placeMotion_spec {p p' : Port} {r : DeckRequest} (h : p.placeMotion r = .ok p') :
    p.link = .online ∧ p'.queue = motionQueue p.queue r
      ∧ p' = { p with queue := p'.queue, exchange := p'.exchange } := by
  unfold Port.placeMotion at h
  cases hl : p.link <;> simp only [hl, linkRefusal] at h <;> try simp at h
  refine ⟨rfl, ?_⟩
  split at h
  · rename_i ha
    injection h with h
    subst h
    refine ⟨by simp [motionQueue, ha], ?_⟩
    split <;> simp [Port.offLine, hl]
  · rename_i ha
    split at h
    · injection h with h
      subst h
      refine ⟨by simp [motionQueue, ha], rfl⟩
    · simp at h

theorem motionQueue_fits {q : List QueuedRequest} {r : DeckRequest} (hr : r.isMotion = true) (hm : motions q ≤ 1)
    (hq : q.length ≤ Config.portQueueCapacity)
    (h : q.any (fun x => x.request.isMotion) = true ∨ q.length < Config.portQueueCapacity) :
    (motionQueue q r).length ≤ Config.portQueueCapacity ∧ motions (motionQueue q r) ≤ 1 := by
  unfold motionQueue
  split
  · exact ⟨by simpa using hq, by rw [replaceMotion_motions (by exact hr)]; exact hm⟩
  · rename_i ha
    have hz := motions_eq_zero (by simpa using ha)
    rcases h with h | h
    · exact absurd h ha
    · refine ⟨by simp only [List.length_append, List.length_cons, List.length_nil]; omega, ?_⟩
      rw [motions_append, hz, motions_cons]
      simp only [hr, if_true, motions_nil]; omega

/-- A port that holds a motion request still fits (R84). -/
theorem Port.placeMotion_fits {p p' : Port} {r : DeckRequest} (hr : r.isMotion = true) (hp : p.queueFits)
    (h : p.placeMotion r = .ok p') : p'.queueFits := by
  have hs := Port.placeMotion_spec h
  unfold Port.queueFits
  rw [hs.2.1]
  refine motionQueue_fits hr hp.2 hp.1 ?_
  unfold Port.placeMotion at h
  simp only [hs.1, linkRefusal] at h
  by_cases ha : p.queue.any (fun x => x.request.isMotion) = true
  · exact .inl ha
  · by_cases hn : p.queue.length < Config.portQueueCapacity
    · exact .inr hn
    · simp [ha, hn] at h

/-- An edit request placed in the ordinary way joins the tail of the queue of an ONLINE port that has room, and changes
nothing else (R83). -/
theorem Port.placeEdit_spec {p p' : Port} {q : QueuedRequest} (h : p.placeEdit q = .ok p') :
    p.link = .online ∧ p.queue.length < Config.portQueueCapacity ∧ p' = { p with queue := p.queue ++ [q] } := by
  unfold Port.placeEdit at h
  cases hl : p.link <;> simp only [hl, linkRefusal] at h <;> try simp at h
  split at h
  · rename_i hn
    injection h with h
    exact ⟨rfl, hn, h.symm⟩
  · simp at h

theorem Port.placeEdit_fits {p p' : Port} {q : QueuedRequest} (hq : q.request.isMotion = false) (hp : p.queueFits)
    (h : p.placeEdit q = .ok p') : p'.queueFits := by
  obtain ⟨-, hn, rfl⟩ := Port.placeEdit_spec h
  refine ⟨by simp only [List.length_append, List.length_cons, List.length_nil]; omega, ?_⟩
  have := hp.2
  simp only [motions_append, motions_cons, hq, motions_nil]
  simpa using this

/-! ### The request on the line -/

@[simp] theorem Port.offLine_queue (p : Port) : p.offLine.queue = p.queue := rfl
@[simp] theorem Port.offLine_link (p : Port) : p.offLine.link = p.link := rfl
@[simp] theorem Port.withProgress_queue (p : Port) (g : Progress) : (p.withProgress g).queue = p.queue := rfl
@[simp] theorem Port.withProgress_link (p : Port) (g : Progress) : (p.withProgress g).link = p.link := rfl
@[simp] theorem Port.completed_queue (p : Port) : p.completed.queue = p.queue := rfl
@[simp] theorem Port.completed_link (p : Port) : p.completed.link = p.link := rfl
@[simp] theorem Port.completed_errors (p : Port) : p.completed.errors = 0 := rfl
@[simp] theorem Port.flushed_queue (p : Port) : p.flushed.queue = [] := rfl
@[simp] theorem Port.flushed_link (p : Port) : p.flushed.link = p.link := rfl

@[simp] theorem Port.openExchange_queue (p : Port) (mode : LabelMode) (n : Nat) :
    (p.openExchange mode n).queue = p.queue := by
  unfold Port.openExchange; split <;> rfl

@[simp] theorem Port.openExchange_link (p : Port) (mode : LabelMode) (n : Nat) : (p.openExchange mode n).link = p.link := by
  unfold Port.openExchange; split <;> rfl

@[simp] theorem Port.removeOnLine_link (p : Port) : p.removeOnLine.link = p.link := by
  unfold Port.removeOnLine; split <;> rfl

/-- Removing the request on the line never leaves more than was there (R77, R78). -/
theorem Port.removeOnLine_fits {p : Port} (h : p.queueFits) : p.removeOnLine.queueFits := by
  unfold Port.removeOnLine
  split
  · have hd := motions_drop_le 1 p.queue
    have h1 := h.1
    have h2 := h.2
    unfold Port.queueFits
    simp only [List.length_drop]
    omega
  · exact h

theorem Port.flushed_fits (p : Port) : p.flushed.queueFits := by
  unfold Port.queueFits Port.flushed; simp

/-! ### The request on the line stays in the queue -/

@[simp] theorem Port.offLine_headOnLine (p : Port) : p.offLine.headOnLine = false := by
  unfold Port.offLine Port.headOnLine
  cases p.exchange <;> rfl

/-- A port without a request on the line holds it in no queue. -/
theorem Port.lineHeld_of_offLine {p : Port} (h : p.headOnLine = false) : p.lineHeld := fun k => by simp [h] at k

theorem Port.removeOnLine_lineHeld (p : Port) : p.removeOnLine.lineHeld := by
  apply Port.lineHeld_of_offLine
  unfold Port.removeOnLine
  split
  · exact Port.offLine_headOnLine p
  · rename_i h; simpa using h

theorem Port.flushed_lineHeld (p : Port) : p.flushed.lineHeld := Port.lineHeld_of_offLine (Port.offLine_headOnLine p)

theorem Port.placeEdit_lineHeld {p p' : Port} {q : QueuedRequest} (h : p.placeEdit q = .ok p') : p'.lineHeld := by
  obtain ⟨-, -, rfl⟩ := Port.placeEdit_spec h
  intro _; simp

/-- A motion request that a port holds stands in its queue (R84). -/
theorem Port.placeMotion_lineHeld {p p' : Port} {r : DeckRequest} (h : p.placeMotion r = .ok p') : p'.lineHeld := by
  intro _ hq
  have hs := (Port.placeMotion_spec h).2.1
  rw [hq] at hs
  have hl := congrArg List.length hs
  unfold motionQueue at hl
  split at hl
  · rename_i ha
    rw [replaceMotion_length] at hl
    have : p.queue = [] := by simpa using hl.symm
    simp [this] at ha
  · simp at hl

/-! ### CTL -/

/-- A CTL pulse keeps the counter and the tally in their ranges (R87). -/
theorem Port.countPulse_fits {p : Port} (forward : Bool) (h : p.ctlFits) : (p.countPulse forward).ctlFits := by
  obtain ⟨h1, h2, h3⟩ := h
  unfold Config.ctlFrameLimit at h3
  unfold Port.ctlFits Port.countPulse Config.ctlFrameLimit
  cases forward <;> refine ⟨?_, ?_, ?_⟩ <;> dsimp only <;> (try split) <;> omega

theorem Port.countPulse_frame (p : Port) (forward : Bool) :
    p.countPulse forward
      = { p with ctlCounter := (p.countPulse forward).ctlCounter, ctlTally := (p.countPulse forward).ctlTally } := rfl

end Sys2Proof.Machine
end

