-- ==== Sys2Proof/Laws/Control.lean ====
section
/-! SUPPORT. What the Machine Controller's shared operations can do: place a motion request at one port, change one machine
record and raise its MACHINE_STATE notice, release a machine (R84, R94, R104, R110). Each leaves every other machine, the
list, the run, the clock, the effects and the cues as they were. -/

namespace Sys2Proof.Machine

/-! ### A frame that several operations share -/

/-- Nothing but ports, machine records and notices differs. -/
def MachinesOnly (s t : State) : Prop :=
  t = { s with ports := t.ports, machines := t.machines, console := t.console } ∧ OnlyNotices s t

theorem MachinesOnly.refl (s : State) : MachinesOnly s s := ⟨rfl, rfl⟩

theorem MachinesOnly.trans {s t u : State} (h : MachinesOnly s t) (k : MachinesOnly t u) : MachinesOnly s u := by
  refine ⟨?_, h.2.trans k.2⟩
  rw [k.1, h.1]

theorem MachinesOnly.setPort (s : State) (m : MachineId) (p : Port) : MachinesOnly s (s.setPort m p) := ⟨rfl, rfl⟩

theorem MachinesOnly.setMachine (s : State) (m : MachineId) (r : MachineRec) : MachinesOnly s (s.setMachine m r) := ⟨rfl, rfl⟩

theorem MachinesOnly.raiseNotice (s : State) (n : Notice) : MachinesOnly s (raiseNotice s n) :=
  ⟨rfl, raiseNotice_onlyNotices s n⟩

/-- One step of a fold over machines keeps the frame, so the whole fold does. -/
theorem MachinesOnly.foldl {α : Type} {f : State → α → State} (hf : ∀ s a, MachinesOnly s (f s a)) (l : List α) (s : State) :
    MachinesOnly s (l.foldl f s) := by
  induction l generalizing s with
  | nil => exact .refl s
  | cons a as ih => exact (hf s a).trans (ih _)

section frame
variable {s t : State} (h : MachinesOnly s t)
include h

theorem MachinesOnly.inReset : t.inReset = s.inReset := by rw [h.1]
theorem MachinesOnly.now : t.now = s.now := by rw [h.1]
theorem MachinesOnly.timeline : t.timeline = s.timeline := by rw [h.1]
theorem MachinesOnly.store : t.store = s.store := by rw [h.1]
theorem MachinesOnly.recorder : t.recorder = s.recorder := by rw [h.1]
theorem MachinesOnly.run : t.run = s.run := by rw [h.1]
theorem MachinesOnly.runParams : t.runParams = s.runParams := by rw [h.1]
theorem MachinesOnly.effects : t.effects = s.effects := by rw [h.1]
theorem MachinesOnly.cues : t.cues = s.cues := by rw [h.1]
theorem MachinesOnly.waiting : t.waiting = s.waiting := by rw [h.1]
theorem MachinesOnly.pending : t.pending = s.pending := by rw [h.1]

end frame

/-! ### Placing a motion request -/

/-- A motion request that a port holds changes that port alone (R83, R84). -/
theorem placeMotion_spec {s t : State} {m : MachineId} {r : DeckRequest} (h : placeMotion s m r = .ok t) :
    ∃ p, (s.port m).placeMotion r = .ok p ∧ t = s.setPort m p := by
  unfold placeMotion at h
  split at h
  · rename_i p hp
    injection h with h
    exact ⟨p, hp, h.symm⟩
  · simp at h

/-- A request that is passed over when refused: nothing changes, or the port holds it and the last speed is its speed. -/
theorem tryMotion_cases (s : State) (m : MachineId) (r : DeckRequest) (v : Int) :
    tryMotion s m r v = s
      ∨ ∃ p, (s.port m).placeMotion r = .ok p
          ∧ tryMotion s m r v = (s.setPort m p).setMachine m { s.machine m with lastSpeed := some v } := by
  unfold tryMotion
  split
  · rename_i t ht
    obtain ⟨p, hp, rfl⟩ := placeMotion_spec ht
    exact .inr ⟨p, hp, rfl⟩
  · exact .inl rfl

theorem tryMotion_machinesOnly (s : State) (m : MachineId) (r : DeckRequest) (v : Int) :
    MachinesOnly s (tryMotion s m r v) := by
  rcases tryMotion_cases s m r v with h | ⟨p, -, h⟩ <;> rw [h]
  · exact .refl s
  · exact (MachinesOnly.setPort s m p).trans (.setMachine _ m _)

theorem tryMotion_others (s : State) (m : MachineId) (r : DeckRequest) (v : Int) : OthersKept s (tryMotion s m r v) m := by
  intro n hn
  rcases tryMotion_cases s m r v with h | ⟨p, -, h⟩ <;> rw [h]
  · exact ⟨rfl, rfl⟩
  · exact ⟨State.setPort_port_other s p hn, State.setMachine_machine_other _ _ hn⟩

/-- Of the record, a request that is passed over when refused touches the last speed alone. -/
theorem tryMotion_record (s : State) (m : MachineId) (r : DeckRequest) (v : Int) :
    (tryMotion s m r v).machine m = { s.machine m with lastSpeed := ((tryMotion s m r v).machine m).lastSpeed } := by
  rcases tryMotion_cases s m r v with h | ⟨p, -, h⟩ <;> rw [h]
  simp

/-- The record of another machine, and this one's but for the last speed, are as they were. -/
theorem tryMotion_control (s : State) (m n : MachineId) (r : DeckRequest) (v : Int) :
    ((tryMotion s m r v).machine n).control = (s.machine n).control := by
  by_cases hn : n = m
  · subst hn; rw [tryMotion_record]
  · rw [(tryMotion_others s m r v n hn).2]

/-! ### Changing a record -/

/-- Changing a record leaves it as the change makes it (R94). -/
@[simp] theorem changeMachine_machine (s : State) (m : MachineId) (f : MachineRec → MachineRec) :
    (changeMachine s m f).machine m = f (s.machine m) := by
  unfold changeMachine; split <;> simp [raiseMachineState]

theorem changeMachine_machine_other (s : State) {m n : MachineId} (f : MachineRec → MachineRec) (h : n ≠ m) :
    (changeMachine s m f).machine n = s.machine n := by
  unfold changeMachine; split <;> simp [raiseMachineState, State.setMachine_machine_other s _ h]

@[simp] theorem changeMachine_ports (s : State) (m : MachineId) (f : MachineRec → MachineRec) :
    (changeMachine s m f).ports = s.ports := by
  unfold changeMachine; split <;> simp [raiseMachineState]

@[simp] theorem changeMachine_port (s : State) (m n : MachineId) (f : MachineRec → MachineRec) :
    (changeMachine s m f).port n = s.port n := by simp [State.port]

theorem changeMachine_machinesOnly (s : State) (m : MachineId) (f : MachineRec → MachineRec) :
    MachinesOnly s (changeMachine s m f) := by
  unfold changeMachine
  split
  · exact .setMachine s m _
  · exact (MachinesOnly.setMachine s m _).trans (.raiseNotice _ _)

/-- A change of control state or claim raises MACHINE_STATE of the machine as it then stands (R94). -/
theorem changeMachine_noticed (s : State) (m : MachineId) (f : MachineRec → MachineRec)
    (h : (f (s.machine m)).control ≠ (s.machine m).control ∨ (f (s.machine m)).claimed ≠ (s.machine m).claimed) :
    Noticed (changeMachine s m f) (machineStateNotice (changeMachine s m f) m) := by
  have hn : ¬((f (s.machine m)).control = (s.machine m).control ∧ (f (s.machine m)).claimed = (s.machine m).claimed) := by
    rcases h with h | h
    · exact fun k => h k.1
    · exact fun k => h k.2
  unfold changeMachine
  rw [if_neg hn]
  exact raiseNotice_noticed _ _

/-- Without a change of control state or claim no notice is raised (R94). -/
theorem changeMachine_quiet (s : State) (m : MachineId) (f : MachineRec → MachineRec)
    (hc : (f (s.machine m)).control = (s.machine m).control) (hk : (f (s.machine m)).claimed = (s.machine m).claimed) :
    changeMachine s m f = s.setMachine m (f (s.machine m)) := by
  unfold changeMachine; rw [if_pos ⟨hc, hk⟩]

/-! ### Locates, follows and releases -/

theorem reportLocateFailure_machinesOnly (s : State) (m : MachineId) (l : Locate) (target : Label) (reason : LocateReason) :
    MachinesOnly s (reportLocateFailure s m l target reason).1 := by
  unfold reportLocateFailure
  split
  · exact .raiseNotice s _
  · exact .refl s

theorem failLocate_machinesOnly (s : State) (m : MachineId) (reason : LocateReason) :
    MachinesOnly s (failLocate s m reason).1 := by
  unfold failLocate
  split
  · exact (changeMachine_machinesOnly s m _).trans (reportLocateFailure_machinesOnly _ m _ _ _)
  · exact .refl s

theorem cancelFollow_machinesOnly (s : State) (m : MachineId) : MachinesOnly s (cancelFollow s m) := by
  unfold cancelFollow dropLeader
  exact (tryMotion_machinesOnly s m .stop 0).trans (changeMachine_machinesOnly _ m _)

theorem cancelFollowsOf_machinesOnly (s : State) (m : MachineId) : MachinesOnly s (cancelFollowsOf s m) := by
  refine MachinesOnly.foldl (fun t f => ?_) _ s
  split
  · split
    · exact cancelFollow_machinesOnly t f
    · exact .refl t
  · exact .refl t
  · exact .refl t

theorem enterMode_machinesOnly (s : State) (m : MachineId) (mode : LabelMode) : MachinesOnly s (enterMode s m mode) :=
  (MachinesOnly.setPort s m _).trans (.setMachine _ m _)

theorem enterMode_others (s : State) (m : MachineId) (mode : LabelMode) : OthersKept s (enterMode s m mode) m := by
  intro n hn
  exact ⟨State.setPort_port_other s _ hn, State.setMachine_machine_other _ _ hn⟩

/-- Entering a label mode clears what belongs to the old domain, and raises no notice (R90, R96). -/
@[simp] theorem enterMode_machine (s : State) (m : MachineId) (mode : LabelMode) :
    (enterMode s m mode).machine m = (s.machine m).inMode mode := by simp [enterMode]

@[simp] theorem enterMode_console (s : State) (m : MachineId) (mode : LabelMode) :
    (enterMode s m mode).console = s.console := rfl

theorem configurationEndsLocate_machinesOnly (before s : State) (m : MachineId) :
    MachinesOnly s (configurationEndsLocate before s m) := by
  unfold configurationEndsLocate
  split
  · exact reportLocateFailure_machinesOnly s m _ _ _
  · exact .refl s

theorem endMotionOfMode_machinesOnly (before s : State) (m : MachineId) : MachinesOnly s (endMotionOfMode before s m) :=
  ((changeMachine_machinesOnly s m _).trans (configurationEndsLocate_machinesOnly before _ m)).trans
    (cancelFollowsOf_machinesOnly _ m)

theorem changeLabelMode_machinesOnly (s : State) (m : MachineId) (mode : LabelMode) :
    MachinesOnly s (changeLabelMode s m mode) :=
  (enterMode_machinesOnly s m mode).trans (endMotionOfMode_machinesOnly s _ m)

theorem claimMachine_machinesOnly (s : State) (m : MachineId) : MachinesOnly s (claimMachine s m) := by
  unfold claimMachine
  split
  · exact (changeMachine_machinesOnly s m _).trans (reportLocateFailure_machinesOnly _ m _ _ _)
  · exact changeMachine_machinesOnly s m _

/-- A released machine is FREE, unclaimed and without leader; one that was not claimed is left as it stands (R110). -/
theorem releaseMachine_unclaimed {s : State} {m : MachineId} (h : (s.machine m).claimed = false) : releaseMachine s m = s := by
  unfold releaseMachine; simp [h]

theorem releaseMachine_record {s : State} {m : MachineId} (h : (s.machine m).claimed = true) :
    (releaseMachine s m).machine m = ((tryStop s m).machine m).released := by
  unfold releaseMachine; simp [h]

theorem releaseMachine_machinesOnly (s : State) (m : MachineId) : MachinesOnly s (releaseMachine s m) := by
  unfold releaseMachine
  split
  · exact (tryMotion_machinesOnly s m .stop 0).trans (changeMachine_machinesOnly _ m _)
  · exact .refl s

theorem releaseMachine_others (s : State) (m : MachineId) : OthersKept s (releaseMachine s m) m := by
  intro n hn
  unfold releaseMachine
  split
  · rw [changeMachine_port, changeMachine_machine_other _ _ hn]
    exact tryMotion_others s m .stop 0 n hn
  · exact ⟨rfl, rfl⟩

theorem chaseTimeline_machinesOnly (s : State) (m : MachineId) (terms : Option TargetTerms) :
    MachinesOnly s (chaseTimeline s m terms) :=
  ((MachinesOnly.setMachine s m _).trans (tryMotion_machinesOnly _ m .play 256)).trans (changeMachine_machinesOnly _ m _)

end Sys2Proof.Machine
end

