-- ==== Sys2Proof/Laws/Effects.lean ====
section
/-! SUPPORT. The stepper and the spans step by step (R152, R156, R160): what one advance does to each field, how many lines
and spans come out, and where boundaries stand. -/

namespace Sys2Proof.Machine

/-! ### The stepper -/

@[simp] theorem Stepper.advance_step (t : Stepper) : t.advance.step = t.step + 1 := by
  unfold Stepper.advance; split <;> rfl

@[simp] theorem Stepper.advance_quotient (t : Stepper) : t.advance.quotient = t.quotient := by
  unfold Stepper.advance; split <;> rfl

@[simp] theorem Stepper.advance_remainder (t : Stepper) : t.advance.remainder = t.remainder := by
  unfold Stepper.advance; split <;> rfl

@[simp] theorem Stepper.advance_count (t : Stepper) : t.advance.count = t.count := by
  unfold Stepper.advance; split <;> rfl

/-- One advance lowers the working value by r, and brings it up by N when it fell below 0, which the output counts. -/
theorem Stepper.advance_balance (t : Stepper) :
    t.advance.working - (t.advance.output - t.output - t.quotient) * (t.count : Int) = t.working - t.remainder := by
  unfold Stepper.advance
  split
  · have h : t.output + t.quotient + 1 - t.output - t.quotient = 1 := by omega
    simp only [h]; omega
  · have h : t.output + t.quotient - t.output - t.quotient = 0 := by omega
    simp only [h]; omega

@[simp] theorem Stepper.advanceBy_zero (t : Stepper) : t.advanceBy 0 = t := rfl

theorem Stepper.advanceBy_succ (t : Stepper) (n : Nat) : t.advanceBy (n + 1) = (t.advanceBy n).advance := rfl

theorem Stepper.advanceBy_advance (t : Stepper) (n : Nat) : t.advance.advanceBy n = (t.advanceBy n).advance := by
  induction n with
  | zero => rfl
  | succ n ih => rw [Stepper.advanceBy_succ, ih, Stepper.advanceBy_succ]

/-! ### Lines -/

@[simp] theorem edgesFrom_length (c : Int) (n : Nat) (t : Stepper) : (edgesFrom c n t).length = n := by
  induction n generalizing t with
  | zero => rfl
  | succ n ih => simp [edgesFrom, ih]

@[simp] theorem spansFrom_length (w : Wipe) (box : Option KeyBox) (line : Nat) (edges : List Nat) :
    (spansFrom w box line edges).length = edges.length := by
  induction edges generalizing line with
  | nil => rfl
  | cons x xs ih => simp [spansFrom, ih]

@[simp] theorem wipeLines_length (lines : Nat) (w : Wipe) (box : Option KeyBox) (c : Int) :
    (wipeLines lines w box c).length = lines := by
  simp [wipeLines]

@[simp] theorem noSpans_length (lines : Nat) : (noSpans lines).length = lines := by simp [noSpans]

/-- A frame of any form has one span list for each active line (R146). -/
theorem frameOf_lines (lines : Nat) (manual : BusSelect) (r : Option Record) (form : FrameForm) (t : Stepper) :
    (frameOf lines manual r form t).lines.length = lines := by
  unfold frameOf
  split <;> (try split) <;> simp

/-! ### Boundaries and spans -/

theorem mem_insertBoundary {a b : Nat} {l : List Nat} : a ∈ insertBoundary b l ↔ a = b ∨ a ∈ l := by
  induction l with
  | nil => simp [insertBoundary]
  | cons x xs ih =>
    unfold insertBoundary
    split
    · simp
    · split
      · rename_i h; subst h; simp
      · simp only [List.mem_cons, ih]
        exact ⟨fun h => by rcases h with h | h | h <;> simp [h], fun h => by rcases h with h | h | h <;> simp [h]⟩

/-- Boundaries stand strictly ascending (R160 step 1). -/
theorem insertBoundary_ascending {b : Nat} {l : List Nat} (h : l.Pairwise (· < ·)) :
    (insertBoundary b l).Pairwise (· < ·) := by
  induction l with
  | nil => simp [insertBoundary]
  | cons x xs ih =>
    have hx := List.pairwise_cons.mp h
    unfold insertBoundary
    split
    · rename_i hb
      refine List.pairwise_cons.mpr ⟨fun y hy => ?_, h⟩
      rcases List.mem_cons.mp hy with rfl | hm
      · exact hb
      · exact Nat.lt_trans hb (hx.1 y hm)
    · split
      · exact h
      · refine List.pairwise_cons.mpr ⟨fun y hy => ?_, ih hx.2⟩
        rcases mem_insertBoundary.mp hy with rfl | hm
        · omega
        · exact hx.1 y hm

theorem boundaries_ascending (box : Option KeyBox) (edge : Nat) : (boundaries box edge).Pairwise (· < ·) := by
  unfold boundaries
  refine insertBoundary_ascending ?_
  split
  · decide
  · exact insertBoundary_ascending (insertBoundary_ascending (by decide))

/-- Merging never makes more spans (R160 step 3). -/
theorem mergeSpans_length_le (l : List Span) : (mergeSpans l).length ≤ l.length := by
  induction l with
  | nil => simp [mergeSpans]
  | cons x xs ih =>
    unfold mergeSpans
    split
    · simp
    · rename_i y ys he
      rw [he] at ih
      split <;> simp at ih ⊢ <;> omega

end Sys2Proof.Machine
end

