-- ==== Sys2Proof/Laws/Store.lean ====
section
/-! SUPPORT. The Event Store's laws: the key order (R33) and the insertion of an event at its place, the events a write
keeps, the renumbering (R36, R37), the changes of state that leave the list alone (R31), and what an applied change can be (R46,
R47). -/

namespace Sys2Proof.Machine

/-! ### The key order (R33) -/

theorem keyBefore_iff (s : State) (a b : Event) :
    keyBefore s a b = true
      ↔ startOffset s a.record < startOffset s b.record
        ∨ (startOffset s a.record = startOffset s b.record ∧ a.insertion < b.insertion) := by
  simp [keyBefore]

theorem keyBefore_irrefl (s : State) (a : Event) : keyBefore s a a = false := by
  simp [keyBefore]

theorem keyBefore_trans (s : State) {a b c : Event} (h : keyBefore s a b = true) (k : keyBefore s b c = true) :
    keyBefore s a c = true := by
  rw [keyBefore_iff] at *
  omega

theorem keyBefore_asymm (s : State) {a b : Event} (h : keyBefore s a b = true) : keyBefore s b a = false := by
  cases hb : keyBefore s b a
  · rfl
  · have := keyBefore_trans s h hb
    rw [keyBefore_irrefl] at this
    simp at this

/-- Two events with different insertion numbers are ordered one way or the other. -/
theorem keyBefore_total (s : State) {a b : Event} (h : a.insertion ≠ b.insertion) :
    keyBefore s a b = true ∨ keyBefore s b a = true := by
  simp only [keyBefore_iff]
  omega

/-- An event that is not before the first of two ordered events is not before the second only if it is before none. -/
theorem not_keyBefore_trans (s : State) {a b c : Event} (h : keyBefore s b a = false) (k : keyBefore s c b = false) :
    keyBefore s c a = false := by
  simp only [← Bool.not_eq_true, keyBefore_iff] at *
  omega

/-! ### The list order -/

theorem insertByKey_perm (s : State) (e : Event) (l : List Event) : (insertByKey s e l).Perm (e :: l) := by
  induction l with
  | nil => exact .refl _
  | cons x xs ih =>
    unfold insertByKey
    split
    · exact .refl _
    · exact (ih.cons x).trans (.swap e x xs)

theorem listOrder_perm (s : State) (l : List Event) : (listOrder s l).Perm l := by
  induction l with
  | nil => exact .refl _
  | cons x xs ih => exact (insertByKey_perm s x _).trans (ih.cons x)

theorem insertByKey_ordered (s : State) (e : Event) {l : List Event} (h : Ordered s l) : Ordered s (insertByKey s e l) := by
  induction l with
  | nil => exact List.pairwise_singleton ..
  | cons x xs ih =>
    unfold Ordered at *
    have hx := List.pairwise_cons.mp h
    unfold insertByKey
    split
    · rename_i hb
      refine List.pairwise_cons.mpr ⟨fun y hy => ?_, h⟩
      rcases List.mem_cons.mp hy with rfl | hm
      · exact keyBefore_asymm s hb
      · exact not_keyBefore_trans s (keyBefore_asymm s hb) (hx.1 y hm)
    · rename_i hb
      refine List.pairwise_cons.mpr ⟨fun y hy => ?_, ih hx.2⟩
      rcases List.mem_cons.mp ((insertByKey_perm s e xs).mem_iff.mp hy) with rfl | hm
      · simpa using hb
      · exact hx.1 y hm

/-- Bringing events into the list order does so (R33). -/
theorem listOrder_ordered (s : State) (l : List Event) : Ordered s (listOrder s l) := by
  induction l with
  | nil => exact List.Pairwise.nil
  | cons x xs ih => exact insertByKey_ordered s x ih

/-! ### Numbering -/

@[simp] theorem numberFrom_length (k : Nat) (l : List Event) : (numberFrom k l).length = l.length := by
  induction l generalizing k with
  | nil => rfl
  | cons x xs ih => simp [numberFrom, ih]

theorem numberFrom_handles (k : Nat) (l : List Event) : (numberFrom k l).map Event.handle = l.map Event.handle := by
  induction l generalizing k with
  | nil => rfl
  | cons x xs ih => simp [numberFrom, ih]

theorem numberFrom_records (k : Nat) (l : List Event) : (numberFrom k l).map Event.record = l.map Event.record := by
  induction l generalizing k with
  | nil => rfl
  | cons x xs ih => simp [numberFrom, ih]

theorem numberFrom_insertions (k : Nat) (l : List Event) :
    (numberFrom k l).map Event.insertion = List.range' k l.length := by
  induction l generalizing k with
  | nil => rfl
  | cons x xs ih => simp [numberFrom, ih, List.range'_succ]

theorem numberFrom_getElem? (k i : Nat) (l : List Event) :
    (numberFrom k l)[i]? = l[i]?.map (fun e => { e with insertion := k + i }) := by
  induction l generalizing k i with
  | nil => rfl
  | cons x xs ih =>
    cases i with
    | zero => rfl
    | succ i => simp [numberFrom, ih, Nat.add_assoc, Nat.add_comm 1]

/-- A renumbering numbers the list by place and rewrites the cursor (R36, R37), and changes nothing else. -/
theorem renumber_spec (s : State) :
    Renumbered s (renumber s) s.store.events
      ∧ renumber s = { s with store := (renumber s).store, run := (renumber s).run } := by
  refine ⟨⟨numberFrom_length _ _, rfl, fun i e h => ?_, ?_⟩, rfl⟩
  · simp [renumber, numberFrom_getElem?, h]
  · simp only [renumber, renumberedCursor, List.countP_eq_length_filter]
    split <;> simp_all

/-! ### Changes of state (R31) -/

/-- A change of state and flags changes no handle, insertion number or record. -/
theorem updateEvent_listOf (s : State) (h : Nat) (f : Event → Event)
    (hf : ∀ e, (f e).handle = e.handle ∧ (f e).insertion = e.insertion ∧ (f e).record = e.record) :
    listOf (updateEvent s h f) = listOf s := by
  unfold listOf updateEvent
  simp only [List.map_map]
  refine List.map_congr_left fun e _ => ?_
  simp only [Function.comp_apply]
  split
  · rw [(hf e).1, (hf e).2.1, (hf e).2.2]
  · rfl

theorem updateEvent_counter (s : State) (h : Nat) (f : Event → Event) :
    (updateEvent s h f).store.counter = s.store.counter := rfl

/-- The event of the handle is changed by the function. -/
theorem findEvent_updateEvent (s : State) (h : Nat) (f : Event → Event) (hf : ∀ e, (f e).handle = e.handle) :
    findEvent (updateEvent s h f) h = (findEvent s h).map f := by
  unfold findEvent updateEvent
  simp only
  induction s.store.events with
  | nil => rfl
  | cons x xs ih =>
    simp only [List.map_cons, List.find?_cons]
    cases hx : x.handle == h
    · simpa [hx] using ih
    · simp [hx, hf x]

theorem Event.withState_handle (e : Event) (st : EventState) (fl : EventFlags) : (e.withState st fl).handle = e.handle := rfl

/-! ### Applied changes (R46, R47) -/

/-- A change is refused by the first test that fails, or every test passes and it is written whole. -/
theorem applyChange_cases (s : State) (known : Bool) (c : Change) :
    (∃ r, changeTests s known c = some r ∧ applyChange s known c = .error r)
      ∨ ∃ a, changeTests s known c = none ∧ applyChange s known c = .ok a ∧ a.state = writeChange s c := by
  unfold applyChange
  cases h : changeTests s known c with
  | some r => exact .inl ⟨r, rfl, rfl⟩
  | none => exact .inr ⟨_, rfl, rfl, rfl⟩

/-- The moving set holds live events alone, none of them the target (R53). -/
theorem mem_movingSet {s : State} {target : Option Nat} {point : Nat} {e : Event} (h : e ∈ movingSet s target point) :
    e ∈ s.store.events ∧ some e.handle ≠ target ∧ point ≤ startOffset s e.record := by
  simpa [movingSet] using h

/-- The ripple moves no event by no shift. -/
theorem rippleMoves_zero {s : State} {c : Change} (h : (rippleMoves s c).2 = 0) : (rippleMoves s c).1 = [] := by
  unfold rippleMoves at *
  split at h
  · rfl
  · split at h
    · rename_i hz; simp [hz]
    · rename_i hz; exact absurd h hz

/-! ### RESTART (R31, R143) -/

/-- Raising the notices of a fold changes nothing but notices. -/
theorem foldl_raiseNotice (f : Event → Notice) (l : List Event) (s : State) :
    let t := l.foldl (fun u e => raiseNotice u (f e)) s
    OnlyNotices s t ∧ t = { s with console := t.console } := by
  induction l generalizing s with
  | nil => exact ⟨rfl, rfl⟩
  | cons e es ih =>
    obtain ⟨hn, ht⟩ := ih (raiseNotice s (f e))
    exact ⟨(raiseNotice_onlyNotices s (f e)).trans hn, ht⟩

/-- RESTART's work at the Event Store rewrites the RUNNING event, and changes nothing else but notices. -/
theorem restartStore_spec (s : State) :
    OnlyNotices s (restartStore s) ∧ restartStore s = { s with store := (reopenRunning s).store, console := (restartStore s).console } :=
  foldl_raiseNotice (fun e => eventStateNotice e.leftIncomplete) _ (reopenRunning s)

theorem reopenRunning_listOf (s : State) : listOf (reopenRunning s) = listOf s := by
  simp only [listOf, reopenRunning, List.map_map]
  refine List.map_congr_left (fun e _ => ?_)
  simp only [Function.comp_apply]
  split <;> rfl

end Sys2Proof.Machine
end

