-- ==== Sys2Proof/Laws/Runs.lean ====
section
/-! SUPPORT. What the Run Controller's shared operations can do: phase changes and holds (R134, R142), changes of an event's
state (R31), and reports, which do nothing in IDLE and HELD (R126 to R134). -/

namespace Sys2Proof.Machine

/-! ### Phase changes -/

theorem enterPhase_spec (s : State) (p : Phase) :
    enterPhase s p
      = raiseNotice { s with run := { s.run with phase := p } } (.runPhase p s.run.mode s.run.current) := rfl

theorem becomeHeld_spec (s : State) (cause : HoldCause) (m : Option MachineId) (phase : Option Phase) :
    becomeHeld s cause m phase
      = raiseNotice { s with run := { s.run with phase := .held, holdCause := some cause } }
          (.runHeld cause m s.run.current phase s.run.eventsDone) := rfl

theorem becomeHeld_phase (s : State) (cause : HoldCause) (m : Option MachineId) (phase : Option Phase) :
    (becomeHeld s cause m phase).run.phase = .held ∧ (becomeHeld s cause m phase).run.holdCause = some cause := ⟨rfl, rfl⟩

theorem becomeHeld_noticed (s : State) (cause : HoldCause) (m : Option MachineId) (phase : Option Phase) :
    Noticed (becomeHeld s cause m phase) (.runHeld cause m s.run.current phase s.run.eventsDone) :=
  raiseNotice_noticed _ _

/-- A hold in IDLE or HELD does nothing (R134). -/
theorem holdRun_atRest {s : State} (h : s.run.phase.active = false) (cause : HoldCause) (m : Option MachineId) :
    holdRun s cause m = s := by
  unfold holdRun; simp [h]

/-- A hold in an active phase leaves the run HELD with its cause, with nothing of the event kept in the run record (R134). -/
theorem holdRun_run {s : State} (h : s.run.phase.active = true) (cause : HoldCause) (m : Option MachineId) :
    (holdRun s cause m).run.phase = .held ∧ (holdRun s cause m).run.holdCause = some cause
      ∧ (holdRun s cause m).run.copy = none ∧ (holdRun s cause m).run.times = none
      ∧ (holdRun s cause m).run.prior = none ∧ (holdRun s cause m).run.holdPending = none := by
  unfold holdRun
  rw [if_pos h]
  exact ⟨rfl, rfl, rfl, rfl, rfl, rfl⟩

/-- Whatever the phase, no run is active after a hold (R134). -/
theorem holdRun_inactive (s : State) (cause : HoldCause) (m : Option MachineId) :
    (holdRun s cause m).run.phase.active = false := by
  by_cases h : s.run.phase.active = true
  · rw [(holdRun_run h cause m).1]; rfl
  · have hf : s.run.phase.active = false := by simpa using h
    rw [holdRun_atRest hf]; exact hf

/-- A deferred fault is pending unless another fault was, and changes nothing else (R132). -/
theorem deferFault_spec (s : State) (cause : HoldCause) (m : MachineId) :
    FaultDeferred s (deferFault s cause m) cause m
      ∧ deferFault s cause m = { s with run := (deferFault s cause m).run } := by
  refine ⟨⟨rfl, rfl, rfl, fun h e c => ?_, fun h => ?_⟩, rfl⟩
  · simp [deferFault, State.updateRun, e, c]
  · rcases h with e | ⟨x, e, c⟩ <;> simp [deferFault, State.updateRun, *]

/-! ### Changes of an event's state -/

/-- A change of an event's state for the run changes the store and the notices alone. -/
theorem changeEventState_frame (s : State) (h : Nat) (f : Event → Event) :
    changeEventState s h f
        = { s with store := (changeEventState s h f).store, console := (changeEventState s h f).console }
      ∧ OnlyNotices s (changeEventState s h f) := by
  unfold changeEventState
  split
  · exact ⟨rfl, raiseNotice_onlyNotices (updateEvent s h f) _⟩
  · exact ⟨rfl, rfl⟩

/-- It changes no handle, insertion number or record (R31). -/
theorem changeEventState_listOf (s : State) (h : Nat) (f : Event → Event)
    (hf : ∀ e, (f e).handle = e.handle ∧ (f e).insertion = e.insertion ∧ (f e).record = e.record) :
    listOf (changeEventState s h f) = listOf s ∧ (changeEventState s h f).store.counter = s.store.counter := by
  unfold changeEventState
  split
  · exact ⟨updateEvent_listOf s h f hf, rfl⟩
  · exact ⟨rfl, rfl⟩

theorem Event.leftIncomplete_key (e : Event) :
    e.leftIncomplete.handle = e.handle ∧ e.leftIncomplete.insertion = e.insertion ∧ e.leftIncomplete.record = e.record :=
  ⟨rfl, rfl, rfl⟩

theorem Event.completed_key (e : Event) :
    e.completed.handle = e.handle ∧ e.completed.insertion = e.insertion ∧ e.completed.record = e.record := ⟨rfl, rfl, rfl⟩

theorem Event.restored_key (e : Event) (p : Option PriorState) :
    (e.restored p).handle = e.handle ∧ (e.restored p).insertion = e.insertion ∧ (e.restored p).record = e.record := by
  cases p <;> exact ⟨rfl, rfl, rfl⟩

theorem Event.withState_key (e : Event) (st : EventState) (fl : EventFlags) :
    (e.withState st fl).handle = e.handle ∧ (e.withState st fl).insertion = e.insertion
      ∧ (e.withState st fl).record = e.record := ⟨rfl, rfl, rfl⟩

/-! ### Reports -/

/-- In IDLE and HELD a report calls for nothing. -/
theorem reportEffect_atRest {s : State} (h : s.run.phase.active = false) (r : RunReport) : reportEffect s r = .nothing := by
  unfold reportEffect
  cases hp : s.run.phase <;> simp [hp, Phase.active] at h ⊢

theorem takeReport_atRest {s : State} (h : s.run.phase.active = false) (r : RunReport) : takeReport s r = s := by
  unfold takeReport; rw [reportEffect_atRest h]

/-- In IDLE and HELD no report changes anything. -/
theorem deliver_atRest {s : State} (h : s.run.phase.active = false) (rs : List RunReport) : deliver (s, rs) = s := by
  unfold deliver
  induction rs with
  | nil => rfl
  | cons r rs ih => simp only [List.foldl_cons]; rw [takeReport_atRest h]; exact ih

@[simp] theorem deliver_nil (s : State) : deliver (s, []) = s := rfl

/-- A report does nothing, holds the run, or defers a fault. -/
theorem takeReport_cases (s : State) (r : RunReport) :
    takeReport s r = s ∨ (∃ c m, takeReport s r = holdRun s c m) ∨ ∃ c m, takeReport s r = deferFault s c m := by
  unfold takeReport
  split
  · exact .inl rfl
  · exact .inr (.inl ⟨_, _, rfl⟩)
  · exact .inr (.inr ⟨_, _, rfl⟩)

/-! ### The clock, the cues and releases -/

@[simp] theorem stopClock_spec (s : State) : stopClock s = { s with timeline := { s.timeline with clock := none } } := rfl

theorem discardCues_cueLine (s : State) (g : CueLineId) : (discardCues s).cueLine g = (s.cueLine g).discarded :=
  Bank.get_map ..

theorem quietLines_cueLine (s : State) (g : CueLineId) : (quietLines s).cueLine g = (s.cueLine g).quiet := Bank.get_map ..

theorem releaseAll_machinesOnly (s : State) : MachinesOnly s (releaseAll s) := MachinesOnly.foldl releaseMachine_machinesOnly _ s

end Sys2Proof.Machine
end

