-- ==== Sys2Proof/Laws/Field.lean ====
section
/-! SUPPORT. What taking a field start can do (R20): a block that has taken it is left alone; the ports, the machines, the
Cue Unit and the Effects Generator each change their own part. -/

namespace Sys2Proof.Machine

theorem takeField_taken {s : State} {r : Receiver} (h : s.waiting.contains r = false) : takeField s r = s := by
  unfold takeField; simp only [h]; rfl

theorem takeField_waiting {s : State} {r : Receiver} (h : s.waiting.contains r = true) :
    takeField s r = actOnField { s with waiting := s.waiting.erase r } r := by
  unfold takeField; simp only [h]; rfl

theorem mem_allReceivers (r : Receiver) : r ∈ allReceivers := by
  cases r with
  | port m => cases m <;> decide
  | machine m => cases m <;> decide
  | run => decide
  | cue => decide
  | effects => decide

/-- A field start is delivered to every block once (R20). -/
theorem allReceivers_nodup : allReceivers.Nodup := by decide

@[simp] theorem takeAll_nil (s : State) : takeAll s [] = s := rfl

@[simp] theorem takeAll_cons (s : State) (r : Receiver) (rs : List Receiver) :
    takeAll s (r :: rs) = takeAll (takeField s r) rs := rfl

/-- What every block's step keeps, taking a field start in any order keeps. -/
theorem takeAll_keeps {P : State → Prop} (h : ∀ s r, P s → P (takeField s r)) (rs : List Receiver) {s : State} (hs : P s) :
    P (takeAll s rs) := by
  induction rs generalizing s with
  | nil => exact hs
  | cons r rs ih => exact ih (h s r hs)

/-- An absent port takes no field start (R71). -/
theorem portField_absent {s : State} {m : MachineId} (h : s.link m = .absent) : portField s m = s := by
  unfold portField; rw [h]

/-- An unconfigured machine's record is not touched at a field start. -/
theorem machineField_unconfigured {s : State} {m : MachineId} (h : (s.machine m).configured = false) :
    machineField s m = s := by
  unfold machineField; simp [h]

theorem cueLinesField_frame (s : State) :
    cueLinesField s = { s with cues := { s.cues with lines := (cueLinesField s).cues.lines } } := by
  unfold cueLinesField; split <;> rfl

/-- While the STOP state is ASSERTED no line counts or fires (R171). -/
theorem cueLinesField_asserted {s : State} (h : s.stopAsserted = true) : cueLinesField s = s := by
  unfold cueLinesField; simp [h]

theorem cueLinesField_cueLine {s : State} (h : s.stopAsserted = false) (g : CueLineId) :
    (cueLinesField s).cueLine g = (s.cueLine g).field (dayRec s) (currentPosition s) := by
  unfold cueLinesField
  simp only [h]
  exact Bank.get_map ..

theorem effectsField_frame (s : State) : effectsField s = { s with effects := (effectsField s).effects } := by
  unfold effectsField; split <;> rfl

/-- While frozen, the frame, its form and the stepper stand; one more frame is sent (R161). -/
theorem effectsField_frozen {s : State} (h : s.effects.freeze = true) :
    (effectsField s).effects = { s.effects with framesSent := s.effects.framesSent + 1 } := by
  unfold effectsField; simp [h]

end Sys2Proof.Machine
end

