-- ==== Sys2Proof/Laws/Handler.lean ====
section
/-! SUPPORT. What taking a request can do (R182, R183): the head of the inbound queue is served by its owner and answered
once, or nothing changes; and a refusal changes nothing else. -/

namespace Sys2Proof.Machine

/-- A head request that its owner serves is answered with what the owner returns. -/
theorem serveHead_served {s : State} {q : RequestMessage} {rest : List RequestMessage} {r : Request}
    {owner : Request → Option (State → Answer)} {serve : State → Answer} (h : HeadIs s q rest r)
    (ho : owner r = some serve) : serveHead s owner = replyTo q (serve (dequeued s rest)) := by
  obtain ⟨hi, hl, hf⟩ := h
  simp [serveHead, hi, replyRoom, hl, hf, ho]

/-- Serving the head changes nothing, or takes the head of the inbound queue with room for its reply. -/
theorem serveHead_cases (s : State) (owner : Request → Option (State → Answer)) :
    serveHead s owner = s
      ∨ ∃ q rest r serve, HeadIs s q rest r ∧ owner r = some serve
          ∧ serveHead s owner = replyTo q (serve (dequeued s rest)) := by
  unfold serveHead
  split
  · exact .inl rfl
  · rename_i q rest hi
    split
    · rename_i hr
      split
      · rename_i serve hb
        obtain ⟨r, hf, ho⟩ := Option.bind_eq_some_iff.mp hb
        exact .inr ⟨q, rest, r, serve, ⟨hi, by simpa [replyRoom] using hr, hf⟩, ho, rfl⟩
      · exact .inl rfl
    · exact .inl rfl

/-- A refusal leaves the state without the head request and with its reply, and nothing else changed (R182). -/
theorem replyTo_refuse (s : State) (q : RequestMessage) (rest : List RequestMessage) (r : Refused) :
    replyTo q (refuse (dequeued s rest) r) = replied q rest r.result (refusalData r) s := rfl

/-- An answer that changes no queue of the console link leaves the one reply at the tail. -/
theorem replyTo_replied (q : RequestMessage) (t : State) (result : Result) (data : List Byte) :
    replyTo q ⟨t, result, data⟩ = replied q t.console.inbound result data t := rfl

section dequeued
variable (s : State) (rest : List RequestMessage)

@[simp] theorem dequeued_inReset : (dequeued s rest).inReset = s.inReset := rfl
@[simp] theorem dequeued_now : (dequeued s rest).now = s.now := rfl
@[simp] theorem dequeued_timeline : (dequeued s rest).timeline = s.timeline := rfl
@[simp] theorem dequeued_store : (dequeued s rest).store = s.store := rfl
@[simp] theorem dequeued_ports : (dequeued s rest).ports = s.ports := rfl
@[simp] theorem dequeued_machines : (dequeued s rest).machines = s.machines := rfl
@[simp] theorem dequeued_recorder : (dequeued s rest).recorder = s.recorder := rfl
@[simp] theorem dequeued_run : (dequeued s rest).run = s.run := rfl
@[simp] theorem dequeued_runParams : (dequeued s rest).runParams = s.runParams := rfl
@[simp] theorem dequeued_effects : (dequeued s rest).effects = s.effects := rfl
@[simp] theorem dequeued_cues : (dequeued s rest).cues = s.cues := rfl
@[simp] theorem dequeued_waiting : (dequeued s rest).waiting = s.waiting := rfl
@[simp] theorem dequeued_pending : (dequeued s rest).pending = s.pending := rfl
@[simp] theorem dequeued_inbound : (dequeued s rest).console.inbound = rest := rfl
@[simp] theorem dequeued_replies : (dequeued s rest).console.replies = s.console.replies := rfl
@[simp] theorem dequeued_notices : (dequeued s rest).console.notices = s.console.notices := rfl
@[simp] theorem dequeued_port (m : MachineId) : (dequeued s rest).port m = s.port m := rfl
@[simp] theorem dequeued_machine (m : MachineId) : (dequeued s rest).machine m = s.machine m := rfl
@[simp] theorem dequeued_link (m : MachineId) : (dequeued s rest).link m = s.link m := rfl
@[simp] theorem dequeued_cueLine (g : CueLineId) : (dequeued s rest).cueLine g = s.cueLine g := rfl
@[simp] theorem dequeued_stopAsserted : (dequeued s rest).stopAsserted = s.stopAsserted := rfl

end dequeued

end Sys2Proof.Machine
end

