-- ==== Sys2Proof/Laws/Exec.lean ====
section
/-! SUPPORT. Every command leads to a next state: the part has no fault, and no arm refuses. -/

namespace Sys2Proof.Machine

/-- The outcome is a next state. -/
def isNext : Step → Bool
  | .next _ => true
  | .fault _ => false
  | .refused _ => false

theorem exec_isNext (c : Instr) (s : State) : isNext (exec c s) = true := by
  cases c with
  | internalFieldTick takers => dsimp only [exec, execInternalFieldTick]; split <;> rfl
  | referencePulse elapsed fieldId takers =>
    dsimp only [exec, execReferencePulse]; split <;> (try split) <;> (try split) <;> rfl
  | resetRelease => dsimp only [exec, execResetRelease]; split <;> rfl
  | gapExpiry => dsimp only [exec, execGapExpiry]; split <;> (try split) <;> rfl
  | lossExpiry takers => dsimp only [exec, execLossExpiry]; split <;> (try split) <;> rfl
  | exchangeTimeout m => dsimp only [exec, execExchangeTimeout]; split <;> rfl
  | statusReply m chars => dsimp only [exec, execStatusReply]; split <;> rfl
  | nakRefused m chars => dsimp only [exec, execNakRefused]; split <;> rfl
  | nakLocal m chars => dsimp only [exec, execNakLocal]; split <;> rfl
  | checkFailure m chars faulty => dsimp only [exec, execCheckFailure]; split <;> rfl
  | unsolicitedCharacter m => dsimp only [exec, execUnsolicitedCharacter]; split <;> rfl
  | portOffline m cause =>
    dsimp only [exec, execPortOffline]; split
    · split <;> split <;> rfl
    · rfl
  | recoveryPoll m => dsimp only [exec, execRecoveryPoll]; split <;> rfl
  | ctlPulse m forward => dsimp only [exec, execCtlPulse]; split <;> rfl
  | lock m chars =>
    dsimp only [exec, execLock]; split
    · split
      · split <;> rfl
      · rfl
    · rfl
  | unlock m cause =>
    dsimp only [exec, execUnlock]; split
    · split
      · split <;> rfl
      · rfl
    · split <;> rfl
  | roll => dsimp only [exec, execRoll]; split <;> rfl
  | cueTimeout => dsimp only [exec, execCueTimeout]; split <;> rfl
  | syncDeadline => dsimp only [exec, execSyncDeadline]; split <;> rfl
  | editOnField => dsimp only [exec, execEditOnField]; split <;> rfl
  | editOffField => dsimp only [exec, execEditOffField]; split <;> rfl
  | postrollEnd => dsimp only [exec, execPostrollEnd]; split <;> rfl
  | cueFire g => dsimp only [exec, execCueFire]; split <;> rfl
  | cuePulseEnd g => dsimp only [exec, execCuePulseEnd]; split <;> rfl
  | stopAssertion order => dsimp only [exec, execStopAssertion]; split <;> rfl
  | stopRelease => dsimp only [exec, execStopRelease]; split <;> rfl
  | transferStart => dsimp only [exec, execTransferStart]; split <;> rfl
  | requestReceived bytes => dsimp only [exec, execRequestReceived]; split <;> (try split) <;> rfl
  | transferEnd bytes => dsimp only [exec, execTransferEnd]; split <;> rfl
  | unknownRequest => dsimp only [exec, execUnknownRequest]; split <;> (try split) <;> rfl
  | restart => dsimp only [exec, execRestart]; split <;> (try split) <;> rfl
  | replyCharacter m char => dsimp only [exec, execReplyCharacter]; split <;> (try split) <;> rfl
  | requestSent m => dsimp only [exec, execRequestSent]; split <;> rfl
  | _ => rfl

/-- `exec` answers a next state for every command in every state. -/
theorem exec_next (c : Instr) (s : State) : ∃ t, exec c s = .next t := by
  have h := exec_isNext c s
  cases ho : exec c s with
  | next t => exact ⟨t, rfl⟩
  | fault f => cases f
  | refused r => rw [ho] at h; simp [isNext] at h

/-- A step never stops. -/
theorem step_next (s : State) : ∃ t, step s = .next t := by
  unfold step
  split
  · exact ⟨_, rfl⟩
  · exact exec_next _ _

end Sys2Proof.Machine
end

