-- ==== Sys2Proof/WellFormed.lean ====
section
/-! DEFINITION. Which commands are well formed: the shape an event of the outside must have to be that event. The checks
concern the command as syntax alone; what the state makes of a command stands in Machine/. -/

namespace Sys2Proof

/-- No block is named twice: a block takes a field start once (R20), and a report reaches it once (R175). -/
def noRepeat {α : Type} [DecidableEq α] : List α → Bool
  | [] => true
  | x :: xs => !xs.contains x && noRepeat xs

/-- At least one character, and no more than a frame holds (R72: 3 to 14 characters). -/
def charsFit (chars : List Byte) : Bool := 1 ≤ chars.length && chars.length ≤ 14

/-- The bytes are a whole console message: the length byte gives the number of bytes that follow it (R195). -/
def wholeMessage : List Byte → Bool
  | [] => false
  | n :: body => n.toNat == body.length

/-- The cause of a PORT_OFFLINE step has the shape of its error. -/
def PortError.wellFormed : PortError → Bool
  | .timeout => true
  | .check chars _ => charsFit chars
  | .unsolicited => true

/-- The cause of an UNLOCK step has the shape of its event. -/
def UnlockCause.wellFormed : UnlockCause → Bool
  | .status chars => charsFit chars
  | .stale => true

/-- The command is well formed. -/
def Instr.wellFormed : Instr → Bool
  | .fullReset => true
  | .resetRelease => true
  | .internalFieldTick takers => noRepeat takers
  | .referencePulse _ _ takers => noRepeat takers
  | .gapExpiry => true
  | .lossExpiry takers => noRepeat takers
  | .exchangeTimeout _ => true
  | .statusReply _ chars => charsFit chars
  | .nakRefused _ chars => charsFit chars
  | .nakLocal _ chars => charsFit chars
  | .checkFailure _ chars _ => charsFit chars
  | .unsolicitedCharacter _ => true
  | .portOffline _ cause => cause.wellFormed
  | .recoveryPoll _ => true
  | .ctlPulse _ _ => true
  | .lock _ chars => charsFit chars
  | .unlock _ cause => cause.wellFormed
  | .roll => true
  | .cueTimeout => true
  | .syncDeadline => true
  | .editOnField => true
  | .editOffField => true
  | .postrollEnd => true
  | .cueFire _ => true
  | .cuePulseEnd _ => true
  | .stopAssertion order => noRepeat order
  | .stopRelease => true
  | .transferStart => true
  | .requestReceived bytes => wholeMessage bytes
  | .transferEnd _ => true
  | .unknownRequest => true
  | .readStatus => true
  | .restart => true
  | .setOrigin => true
  | .add => true
  | .trimIn => true
  | .trimOut => true
  | .slip => true
  | .trimTransition => true
  | .setSplit => true
  | .move => true
  | .delete => true
  | .readEvent => true
  | .readOrdinal => true
  | .next => true
  | .previous => true
  | .count => true
  | .findAt => true
  | .matchFrame => true
  | .clearList => true
  | .configureMachine => true
  | .setRecorder => true
  | .setStandard _ => true
  | .readMachine => true
  | .stop => true
  | .play => true
  | .shuttle => true
  | .locate => true
  | .follow => true
  | .unfollow => true
  | .markIn => true
  | .markOut => true
  | .clearMarks => true
  | .run => true
  | .hold => true
  | .abort => true
  | .resumeRetry => true
  | .resumeSkip => true
  | .resetRun => true
  | .readRun => true
  | .setRunParameters => true
  | .select => true
  | .readEffects => true
  | .setCueLine => true
  | .fire => true
  | .readCueLine => true
  | .replyCharacter _ _ => true
  | .requestSent _ => true

end Sys2Proof
end

