-- ==== Sys2Proof/Tests/Slice0.lean ====
section
/-! SUPPORT. Tests: ill-formed commands that the checks refuse; the worked numbers of the manual; and, for each obligation
that has hypotheses, a state and operands that meet them (`witness_<Obligation>`). Expected values come from the manual's
examples and tables, or are worked out from its rules by hand, as each test's comment says. -/

namespace Sys2Proof.Tests

open Sys2Proof.Machine

-- One test at a time: each evaluation in the kernel otherwise holds a thread of its own.
set_option Elab.async false

/-! ### Ill-formed commands -/

theorem test_tick_takes_each_block_once : (Instr.internalFieldTick [.run, .cue, .run]).wellFormed = false := by decide

theorem test_pulse_takes_each_block_once :
    (Instr.referencePulse 4004 .field1 [.port .u3, .machine .u3, .port .u3]).wellFormed = false := by decide

theorem test_loss_takes_each_block_once : (Instr.lossExpiry [.effects, .effects]).wellFormed = false := by decide

theorem test_stop_reports_each_block_once :
    (Instr.stopAssertion [.runController, .machineController, .runController]).wellFormed = false := by decide

theorem test_reply_needs_a_character :
    (Instr.statusReply .u0 []).wellFormed = false ∧ (Instr.nakRefused .u0 []).wellFormed = false
      ∧ (Instr.nakLocal .u0 []).wellFormed = false ∧ (Instr.checkFailure .u0 [] true).wellFormed = false
      ∧ (Instr.lock .u0 []).wellFormed = false := by decide

/-- A frame has at most 14 characters (R72). -/
theorem test_reply_fits_a_frame :
    (Instr.statusReply .u0 (List.replicate 14 0#8)).wellFormed = true
      ∧ (Instr.statusReply .u0 (List.replicate 15 0#8)).wellFormed = false := by decide

theorem test_offline_cause_has_its_shape :
    (Instr.portOffline .u1 (.check [] false)).wellFormed = false ∧ (Instr.portOffline .u1 .timeout).wellFormed = true := by
  decide

theorem test_unlock_cause_has_its_shape :
    (Instr.unlock .u1 (.status [])).wellFormed = false ∧ (Instr.unlock .u1 .stale).wellFormed = true := by decide

/-- The length byte gives the bytes that follow (R195). -/
theorem test_message_has_its_length :
    (Instr.requestReceived [3#8, 0x24#8, 7#8]).wellFormed = false ∧ (Instr.requestReceived []).wellFormed = false
      ∧ (Instr.requestReceived [2#8, 1#8, 7#8]).wellFormed = true := by decide

/-! ### Sample states -/

/-- Every machine configured and ONLINE, M0 the recorder. -/
def suite : State :=
  { State.reset with
    ports := Bank.fill { Port.reset with link := .online }
    machines := Bank.fill { MachineRec.reset with configured := true }
    recorder := some .u0 }

/-- A picture CUT of machine M1: record in 1,000, 100 fields. -/
def cutRecord : Record :=
  { kind := .cut, tracks := TrackSet.vOnly, recordIn := 1000, duration := 100, source1 := ⟨.u1, 2000⟩, source2 := none,
    transition := none, wipe := none, box := none, split := none, rate := none, colour := false, cues := [] }

/-- A MIX on V and A1 of 200 fields at 2,000, from M2 to M1 in 30 fields, split +10. -/
def mixRecord : Record :=
  { kind := .mix, tracks := ⟨true, true, false, false, false⟩, recordIn := 2000, duration := 200, source1 := ⟨.u1, 5000⟩,
    source2 := some ⟨.u2, 6000⟩, transition := some 30, wipe := none, box := none, split := some 10, rate := none,
    colour := false, cues := [] }

def cutEvent : Event := ⟨0, 0, .opened, ⟨false, false⟩, cutRecord⟩

def mixEvent : Event := ⟨1, 1, .performed, ⟨false, false⟩, mixRecord⟩

/-- The suite with the two events. -/
def listed : State := { suite with store := ⟨[cutEvent, mixEvent], 2⟩ }

/-- A state whose one inbound request has a code and parameters, and tag 7. -/
def asked (s : State) (code : Byte) (params : List Byte) : State :=
  { s with console := { s.console with inbound := [⟨code, 7#8, params⟩] } }

/-- The request that `asked` puts in. -/
def message (code : Byte) (params : List Byte) : RequestMessage := ⟨code, 7#8, params⟩

/-- A run phase. -/
def inPhase (s : State) (p : Phase) : State := { s with run := { s.run with phase := p } }

/-- The STOP input recognised as asserted. -/
def stopOn (s : State) : State := { s with cues := { s.cues with stop := .asserted } }

/-- A machine's record changed. -/
def withMachine (s : State) (m : MachineId) (f : MachineRec → MachineRec) : State := s.setMachine m (f (s.machine m))

/-- A machine's port changed. -/
def withPort (s : State) (m : MachineId) (f : Port → Port) : State := s.setPort m (f (s.port m))

/-- A number of like requests in a port's queue. -/
def editOns (n : Nat) : List QueuedRequest := List.replicate n ⟨.editOn TrackSet.vOnly, some 0⟩

/-- The head request lays out `r`. -/
theorem headIs_asked {s : State} {code : Byte} {params : List Byte} {r : Request}
    (h : s.console.replies.length < Config.replyCapacity) (f : formRequest (message code params) = some r) :
    HeadIs (asked s code params) (message code params) [] r := ⟨rfl, h, f⟩

/-! ### The whole machine -/

theorem witness_StepRunsFrontCommand : State.reset.pending = [] := rfl

theorem witness_ResetInputRestartsFieldClock : { State.reset with inReset := true }.inReset = true := rfl

/-- Queues at their capacities, counts at their ends. -/
def fullState : State :=
  { suite with
    ports := Bank.fill
      { Port.reset with link := .online, queue := ⟨.play, none⟩ :: editOns 3, ctlCounter := -32768, ctlTally := 256 }
    machines := Bank.fill
      { MachineRec.reset with configured := true, stale := 8, locate := some ⟨0, .console, true, 2⟩ }
    waiting := allReceivers
    timeline := { suite.timeline with goodCount := 16 }
    run := { suite.run with eventsDone := 65535, cueingCount := 7200 }
    console := { suite.console with
      inbound := List.replicate 8 (message 1#8 []), replies := List.replicate 8 ⟨1#8, 7#8, .ok, []⟩
      notices := List.replicate 32 (.reference .lost) } }

theorem witness_QueuesAndCountsStayInRange : Safe fullState ∧ ∃ t, step fullState = .next t := by
  refine ⟨⟨fun m => ?_, by unfold ConsoleQueuesFit; decide, ⟨by decide, by decide, by decide, fun m => ?_, fun m => ?_⟩,
    fun m => ?_, by unfold WaitsOnce; decide +kernel⟩, step_next _⟩
  · cases m <;> (unfold Port.queueFits Port.lineHeld; decide)
  · cases m <;> (unfold Port.ctlFits; decide)
  · cases m <;> exact ⟨by decide, by decide, by decide, fun l h => by cases h; decide⟩
  · cases m <;> rfl

theorem witness_ListStaysOrderedAndExclusive : ListSound listed ∧ ∃ t, step listed = .next t := by
  refine ⟨⟨?_, ?_, ?_, ?_, ?_⟩, step_next _⟩
  · unfold RecorderConfigured; intro m h; cases h; rfl
  · unfold HandlesSound; decide
  · unfold OrderSound; decide
  · unfold TracksExclusive
    simp only [listed, List.pairwise_cons, List.mem_cons, List.not_mem_nil, or_false, forall_eq]
    exact ⟨fun t => by cases t <;> decide, fun _ h => h.elim, List.Pairwise.nil⟩
  · unfold RecordsFit; decide

theorem witness_StopKeepsSuiteAtRest : StopRests (stopOn suite) ∧ ∃ t, step (stopOn suite) = .next t := by
  refine ⟨fun _ => ⟨rfl, fun m _ => ?_, fun g => ?_⟩, step_next _⟩
  · cases m <;> exact ⟨rfl, rfl⟩
  · cases g <;> exact ⟨rfl, rfl, rfl, rfl, rfl⟩

/-- M0 to M6 each follow the next machine: the longest chain. -/
def chained : State :=
  { suite with machines :=
      let f := fun m : MachineId =>
        { MachineRec.reset with configured := true, control := .chasing, leader := .machine m 0 }
      ⟨f .u1, f .u2, f .u3, f .u4, f .u5, f .u6, f .u7, { MachineRec.reset with configured := true }⟩ }

theorem witness_LeadersNeverCycle : LeadersEnd chained ∧ ∃ t, step chained = .next t :=
  ⟨fun m => by cases m <;> decide, step_next _⟩

theorem witness_RequestsAnsweredOnceRefusalsChangeNothing :
    isRequest .abort = true ∧ (∃ t, exec .abort (asked suite 0x32#8 []) = .next t)
      ∧ isRequest .restart = true ∧ ∃ t, exec .restart (asked suite 2#8 []) = .next t :=
  ⟨rfl, exec_next _ _, rfl, exec_next _ _⟩

theorem witness_OnlyListRequestsChangeList :
    changesList .restart = false ∧ ∃ t, exec .restart (asked listed 2#8 []) = .next t := ⟨rfl, exec_next _ _⟩

/-! ### The Timeline Unit -/

/-- The part at a field start. -/
def atField (s : State) (count : Nat) (parity : Parity) : State :=
  { s with timeline := { s.timeline with field := some ⟨count, parity⟩ } }

theorem witness_InternalTickMakesFieldStart :
    (State.reset.inReset = false ∧ State.reset.timeline.refState ≠ .onReference ∧ State.reset.timeline.field = none)
      ∧ ((atField suite 4294967294 .field1).inReset = false
        ∧ (atField suite 4294967294 .field1).timeline.refState ≠ .onReference
        ∧ (atField suite 4294967294 .field1).timeline.field = some ⟨4294967294, .field1⟩)
      ∧ (atField suite 4294967295 .field2).timeline.refState ≠ .onReference
      ∧ (atField suite 4294967295 .field2).timeline.field = some ⟨4294967295, .field2⟩ := by decide

/-- A pulse of field 1 taken at time 0, with a good-pulse count, in a reference state. -/
def pulsed (state : RefState) (good : Nat) : State :=
  { suite with timeline :=
      { suite.timeline with
        refState := state, goodCount := good, lastPulse := some ⟨0, .field1⟩, refFieldStart := some 0
        field := some ⟨40, .field1⟩ } }

/-- A field of the 525 standard is 4,004 units: 0.75 of it is 3,003. -/
theorem witness_PulsesAreCountedOffReference :
    (suite.inReset = false ∧ suite.timeline.lastPulse = none ∧ maySwitch suite 0 .field1 = false)
      ∧ ((pulsed .absent 1).timeline.lastPulse = some ⟨0, .field1⟩
        ∧ 4 * ((pulsed .absent 1).now + 3002 - 0) < 3 * (pulsed .absent 1).timeline.standard.period)
      ∧ (pulsed .absent 1).timeline.refState ≠ .onReference ∧ maySwitch (pulsed .absent 1) 3003 .field2 = false
      ∧ 3 * (pulsed .absent 1).timeline.standard.period ≤ 4 * ((pulsed .absent 1).now + 3003 - 0) := by decide

/-- 1.5 fields of the 525 standard are 6,006 units. -/
theorem witness_PulsesMakeFieldStartsOnReference :
    ((pulsed .onReference 16).inReset = false ∧ (pulsed .onReference 16).timeline.refState = .onReference
        ∧ (pulsed .onReference 16).timeline.lastPulse = some ⟨0, .field1⟩
        ∧ 3 * (pulsed .onReference 16).timeline.standard.period ≤ 4 * ((pulsed .onReference 16).now + 3003 - 0))
      ∧ (2 * ((pulsed .onReference 16).now + 6006 - 0) ≤ 3 * (pulsed .onReference 16).timeline.standard.period
        ∧ Parity.field2 = opposite .field1 ∧ (pulsed .onReference 16).timeline.goodCount ≠ 0
        ∧ (pulsed .onReference 16).timeline.refBroken = false)
      ∧ { (pulsed .onReference 1) with
          timeline := { (pulsed .onReference 1).timeline with refBroken := true } }.timeline.goodCount ≠ 0
      ∧ 3 * (pulsed .onReference 16).timeline.standard.period < 2 * ((pulsed .onReference 16).now + 6007 - 0) := by decide

theorem witness_SwitchToReferenceAtRest :
    ((pulsed .presentWaiting 16).timeline.refState = .presentWaiting
        ∧ (pulsed .presentWaiting 16).timeline.goodCount = 16
        ∧ (pulsed .presentWaiting 16).timeline.lastPulse = some ⟨0, .field1⟩
        ∧ 3 * (pulsed .presentWaiting 16).timeline.standard.period ≤ 4 * ((pulsed .presentWaiting 16).now + 4004 - 0)
        ∧ 2 * ((pulsed .presentWaiting 16).now + 4004 - 0) ≤ 3 * (pulsed .presentWaiting 16).timeline.standard.period)
      ∧ (settle (pulsed .presentWaiting 16)).run.phase.active = false
      ∧ (settle (inPhase (pulsed .presentWaiting 16) .editing)).run.phase.active = true := by decide

/-- The half-period boundary of the switch: the clock's field start 2,001 or 2,002 units before the pulse. -/
theorem witness_SwitchToReferenceAtRest_halfPeriod :
    2 * ((0 : Nat) + 4004 - 2003) < Standard.s525.period ∧ Standard.s525.period ≤ 2 * ((0 : Nat) + 4004 - 2002) := by decide

/-- Every block waits, each once, with the run in ROLLING on reference. -/
theorem witness_ExpiriesEndTheReference_hold :
    (let s := { inPhase (pulsed .onReference 16) .rolling with waiting := allReceivers };
      WaitsOnce s ∧ s.inReset = false ∧ s.timeline.refState = .onReference ∧ s.timeline.refFieldStart = some 0
        ∧ s.timeline.field = some ⟨40, .field1⟩ ∧ (settle s).run.phase.active = true) := by
  unfold WaitsOnce; decide +kernel

theorem witness_ExpiriesEndTheReference :
    (pulsed .onReference 16).inReset = false ∧ (pulsed .onReference 16).timeline.lastPulse = some ⟨0, .field1⟩
      ∧ (pulsed .onReference 16).timeline.refState = .onReference
      ∧ (pulsed .onReference 16).timeline.refFieldStart = some 0
      ∧ (pulsed .onReference 16).timeline.field = some ⟨40, .field1⟩
      ∧ (settle (inPhase (pulsed .onReference 16) .rolling)).run.phase.active = true := by decide

/-- The suite without a recorder and without events: M0 is configured. -/
def cleared : State := { suite with recorder := none }

theorem witness_DomainRequestsNeedIdleEmptyList :
    (HeadIs (asked suite 8#8 [1#8, 0#8, 0#8, 0#8, 1#8]) (message 8#8 [1#8, 0#8, 0#8, 0#8, 1#8]) []
          (.setOrigin ⟨1, 0, 0, 0, 1⟩)
        ∧ consoleLabel .df ⟨1, 0, 0, 0, 1⟩ = some (215784, false) ∧ suite.run.phase = .idle ∧ suite.store.events = [])
      ∧ (HeadIs (asked suite 8#8 [24#8, 0#8, 0#8, 0#8, 1#8]) (message 8#8 [24#8, 0#8, 0#8, 0#8, 1#8]) []
          (.setOrigin ⟨24, 0, 0, 0, 1⟩) ∧ labelInRange .df ⟨24, 0, 0, 0, 1⟩ = false)
      ∧ (HeadIs (asked (inPhase listed .held) 0x21#8 [0xff#8]) (message 0x21#8 [0xff#8]) [] (.setRecorder none)
        ∧ (inPhase listed .held).run.phase ≠ .idle)
      ∧ (HeadIs (asked listed 0x21#8 [7#8]) (message 0x21#8 [7#8]) [] (.setRecorder (some .u7))
        ∧ (listed.machine .u7).configured = true ∧ listed.run.phase = .idle ∧ listed.store.events ≠ [])
      ∧ (HeadIs (asked State.reset 0x21#8 [0#8]) (message 0x21#8 [0#8]) [] (.setRecorder (some .u0))
        ∧ (State.reset.machine .u0).configured = false)
      ∧ (HeadIs (asked suite 0x22#8 [1#8]) (message 0x22#8 [1#8]) [] (.setStandard 1) ∧ standardOf? 1 = some .s625)
      ∧ ((State.reset.machine .u0).configured = false ∧ (State.reset.machine .u0).following = false)
      ∧ HeadIs (asked suite 0x22#8 [2#8]) (message 0x22#8 [2#8]) [] (.setStandard 2) := by
  simp only [HeadIs]; decide

/-! ### The console link -/

/-- A transfer in progress. -/
def transferring (s : State) (x : Transfer) : State := { s with console := { s.console with transfer := some x } }

/-- A transfer as it begins, sending the empty message. -/
def fresh : Transfer := ⟨[0#8], .noQueue, false, 0, false⟩

/-- A state with replies and notices waiting. -/
def talking (replies : Nat) (notices : List Notice) : State :=
  { suite with console :=
      { suite.console with replies := List.replicate replies ⟨1#8, 7#8, .ok, []⟩, notices := notices } }

theorem witness_TransferStartChoosesOldest :
    (talking 2 [.reference .lost]).console.transfer = none
      ∧ (talking 2 [.reference .lost]).console.replies = [⟨1#8, 7#8, .ok, []⟩, ⟨1#8, 7#8, .ok, []⟩]
      ∧ ((talking 0 [.reference .lost]).console.replies = []
        ∧ (talking 0 [.reference .lost]).console.notices = [.reference .lost])
      ∧ ((talking 0 []).inReset = false ∧ (talking 0 []).console.notices = [])
      ∧ { State.reset with inReset := true }.console.transfer = none := by decide

theorem witness_ReceivedRequestJoinsQueue :
    (transferring suite fresh).console.transfer = some fresh ∧ fresh.dead = false ∧ fresh.received = false
      ∧ (2#8 : Byte).toNat = ([] : List Byte).length + 2 ∧ (255#8 : Byte).toNat = (List.replicate 253 0#8).length + 2
      ∧ (List.replicate 7 (message 1#8 [])).length < 8 ∧ 8 ≤ (List.replicate 8 (message 1#8 [])).length := by
  decide +kernel

/-- Received, dead, and without a byte; cut short; a length of 1; the empty message; whole, with a surplus byte. -/
theorem witness_TransferEndRemovesMessageSent :
    (transferring suite { fresh with received := true }).console.transfer = some { fresh with received := true }
      ∧ { fresh with dead := true }.dead = true
      ∧ ((transferring suite fresh).console.transfer = some fresh ∧ fresh.received = false ∧ fresh.dead = false)
      ∧ (⟨[3#8, 1#8, 7#8, 0#8], .replyQueue, false, 0, false⟩ : Transfer).source = .replyQueue
      ∧ [0#8, 0#8, 0#8, 0#8].length ≤ 3 + [0#8].length ∧ ¬ [0#8, 0#8, 0#8, 0#8].length ≤ 3 + ([] : List Byte).length
      ∧ superseded [machineStateNotice suite .u1, machineStateNotice suite .u2] = false
      ∧ superseded [machineStateNotice suite .u1, machineStateNotice suite .u1] = true
      ∧ [1#8, 2#8].length < (3#8 : Byte).toNat ∧ (1#8 : Byte).toNat = 1 ∧ 1 ≤ [5#8].length
      ∧ [2#8, 1#8, 7#8, 9#8] = 2#8 :: 1#8 :: 7#8 :: (([] : List Byte) ++ [9#8])
      ∧ (2#8 : Byte).toNat = ([] : List Byte).length + 2
      ∧ (List.replicate 7 (message 1#8 [])).length < 8 ∧ 8 ≤ (List.replicate 8 (message 1#8 [])).length := by decide

theorem witness_NoticesAreQueuedInOrder :
    (Notice.reference .lost).stateMachine? = none
      ∧ (talking 0 (List.replicate 31 (.reference .lost))).console.notices.length < 32
      ∧ 32 ≤ (talking 0 (List.replicate 32 (.reference .lost))).console.notices.length
      ∧ (machineStateNotice suite .u1).stateMachine? = some .u1
      ∧ (∀ o ∈ (talking 0 [.reference .lost]).console.notices.drop (talking 0 [.reference .lost]).console.noticesOnLink,
          o.stateMachine? ≠ some .u1)
      ∧ (talking 0 [.reference .lost, machineStateNotice suite .u1]).console.notices.drop
            (talking 0 [.reference .lost, machineStateNotice suite .u1]).console.noticesOnLink
          = [.reference .lost] ++ machineStateNotice suite .u1 :: [] := by decide

/-- The first and last code of each gap in R195's table, and a request of the table with a bad layout. -/
theorem witness_UnknownRequestAnsweredBadRequest :
    (∀ c ∈ [0x00#8, 0x03#8, 0x07#8, 0x09#8, 0x0f#8, 0x2d#8, 0x2f#8, 0x3a#8, 0x3b#8, 0x3f#8, 0xff#8],
        formRequest (message c []) = none
          ∧ ¬ (c.toNat = 0x01 ∨ c.toNat = 0x02 ∨ c.toNat = 0x08 ∨ (0x10 ≤ c.toNat ∧ c.toNat ≤ 0x2c)
            ∨ (0x30 ≤ c.toNat ∧ c.toNat ≤ 0x39) ∨ (0x3c ≤ c.toNat ∧ c.toNat ≤ 0x3e)))
      ∧ formRequest (message 0x24#8 [8#8]) = none
      ∧ (asked (talking 7 []) 0x3f#8 []).console.replies.length < 8
      ∧ 8 ≤ (asked (talking 8 []) 0x3f#8 []).console.replies.length := by decide

theorem witness_RestartBringsSuiteToRest :
    ((asked (talking 8 []) 2#8 []).console.inbound = [message 2#8 []] ∧ formRequest (message 2#8 []) = some .restart)
      ∧ (let s := { listed with
            store := ⟨[cutEvent.taken, mixEvent], 2⟩, run := { listed.run with editSet := TrackSet.vOnly } };
          cutEvent.taken ∈ s.store.events ∧ cutEvent.taken.state = .running ∧ s.recorder = some .u0
            ∧ s.link .u0 = .online ∧ s.run.editSet.isEmpty = false)
      ∧ (withPort suite .u2 (fun p => { p with link := .offline })).link .u2 ≠ .online := by decide

/-- 32 notices that are no MACHINE_STATE, and a claimed machine that is configured. -/
theorem witness_RestartBringsSuiteToRest_count :
    (let s := withMachine (talking 0 (List.replicate 32 (.reference .lost))) .u1 (fun r => { r with claimed := true });
      s.console.notices.length ≤ 32 ∧ (∀ k ∈ s.console.notices, k.stateMachine? = none)
        ∧ ∀ m, (s.machine m).claimed = true → (s.machine m).configured = true) :=
  ⟨by decide, by decide, fun m => by cases m <;> decide⟩

/-! ### The Event Store's requests -/

/-- The record block of an ADD: a CUT of M1 on V, record in 00:00:50:00 field 1, 100 fields, from 00:00:10:00 field 1; its
labels are to be read when `labels` holds, the marks otherwise. -/
def addParams (mode presence : Byte) : List Byte :=
  [mode, 0#8, 1#8, presence, 0#8, 0#8, 0#8, 50#8, 0#8, 1#8, 0#8, 0#8, 0#8, 100#8, 1#8, 0#8, 0#8, 10#8, 0#8, 1#8]
    ++ List.replicate 27 0#8

def addBlock (labels : Bool) : RecordBlock :=
  { kind := 0, tracks := 1, hasSource2 := false, hasTransition := false, hasWipe := false, hasBox := false,
    hasSplit := false, hasRate := false, hasPositions := labels, colour := 0, recordIn := ⟨0, 0, 50, 0, 1⟩, duration := 100,
    machine1 := .u1, in1 := ⟨0, 0, 10, 0, 1⟩, machine2 := none, in2 := ⟨0, 0, 0, 0, 0⟩, transition := 0, sx := 0, sy := 0,
    wipeFlags := 0, kx0 := 0, kx1 := 0, ky0 := 0, ky1 := 0, mask := 0, split := 0, rate := 0, cues := [] }

def added : Record := { cutRecord with recordIn := 3000, source1 := ⟨.u1, 600⟩ }

/-- The two events, the recorder marked 3,000 to 3,100 and M1 at 600. -/
def marked : State :=
  withMachine (withMachine listed .u0 (fun r => { r with markIn := some 3000, markOut := some 3100 })) .u1
    (fun r => { r with markIn := some 600 })

theorem witness_AddWritesNewEvent :
    HeadIs (asked listed 0x10#8 (addParams 1#8 0x40#8)) (message 0x10#8 (addParams 1#8 0x40#8)) [] (.add .place (addBlock true))
      ∧ labelPositions listed (addBlock true) = .ok ⟨3000, 100, 600, 0, false⟩
      ∧ kindOf? 0 = some .cut ∧ tracksOf? 1 = some TrackSet.vOnly ∧ flagOf? 0 = some false ∧ lowestFree listed = some 2
      ∧ nudged listed (newRecord (addBlock true) .cut TrackSet.vOnly false ⟨3000, 100, 600, 0, false⟩) = added
      ∧ changeTests listed true ⟨none, some added, none⟩ = none := by
  refine ⟨?_, rfl, ?_⟩
  · simp only [HeadIs]; decide +kernel
  · decide +kernel

theorem witness_AddWritesNewEvent_marks :
    HeadIs (asked marked 0x10#8 (addParams 2#8 0#8)) (message 0x10#8 (addParams 2#8 0#8)) [] (.add .ripple (addBlock false))
      ∧ markPositions marked (addBlock false) = .ok ⟨3000, 100, 600, 0, false⟩
      ∧ changeTests marked true ⟨none, some added, addRipple marked .ripple added⟩ = none := by
  refine ⟨?_, rfl, ?_⟩
  · simp only [HeadIs]; decide +kernel
  · decide +kernel

/-- The counter one below its maximum, and at it (R35). -/
theorem witness_AddWritesNewEvent_counter :
    (4294967294 : Nat) + 1 < 4294967296 ∧ (4294967296 : Nat) ≤ 4294967295 + 1
      ∧ changeTests { listed with store := ⟨[cutEvent, mixEvent], 4294967295⟩ } true ⟨none, some added, none⟩ = none := by
  decide +kernel

/-- TRIM IN by −5, SLIP of either source, TRIM TRANSITION by −29, SET SPLIT to 0 and MOVE to 00:00:40:00. -/
theorem witness_ChangeRequestsRewriteTarget :
    (findEvent listed 1 = some mixEvent ∧ mixEvent.state ≠ .running)
      ∧ (HeadIs (asked listed 0x11#8 [1#8, 0#8, 1#8, 0xff#8, 0xff#8, 0xff#8, 0xfb#8])
            (message 0x11#8 [1#8, 0#8, 1#8, 0xff#8, 0xff#8, 0xff#8, 0xfb#8]) [] (.trimIn .place 1 (-5))
        ∧ changeTests listed true ⟨some mixEvent, some (nudged listed (trimmedIn listed mixRecord (-5))), none⟩ = none)
      ∧ (HeadIs (asked listed 0x13#8 [0#8, 0#8, 1#8, 1#8, 0#8, 0#8, 0#8, 3#8])
            (message 0x13#8 [0#8, 0#8, 1#8, 1#8, 0#8, 0#8, 0#8, 3#8]) [] (.slip .noMode 1 1 3)
        ∧ changeTests listed true ⟨some mixEvent,
            some (nudged listed { mixRecord with source1 := moveSource listed 3 mixRecord.source1 }), none⟩ = none)
      ∧ (HeadIs (asked listed 0x13#8 [0#8, 0#8, 1#8, 2#8, 0#8, 0#8, 0#8, 3#8])
            (message 0x13#8 [0#8, 0#8, 1#8, 2#8, 0#8, 0#8, 0#8, 3#8]) [] (.slip .noMode 1 2 3)
        ∧ mixRecord.source2 = some ⟨.u2, 6000⟩
        ∧ changeTests listed true ⟨some mixEvent,
            some (nudged listed { mixRecord with source2 := some (moveSource listed 3 ⟨.u2, 6000⟩) }), none⟩ = none)
      ∧ (HeadIs (asked listed 0x14#8 [0#8, 1#8, 0xff#8, 0xff#8, 0xff#8, 0xe3#8])
            (message 0x14#8 [0#8, 1#8, 0xff#8, 0xff#8, 0xff#8, 0xe3#8]) [] (.trimTransition 1 (-29))
        ∧ changeTests listed true ⟨some mixEvent, some (nudged listed { mixRecord with transition := some 1 }), none⟩ = none)
      ∧ (HeadIs (asked listed 0x15#8 [0#8, 1#8, 0#8, 0#8]) (message 0x15#8 [0#8, 1#8, 0#8, 0#8]) [] (.setSplit 1 0)
        ∧ changeTests listed true ⟨some mixEvent, some (nudged listed { mixRecord with split := none }), none⟩ = none)
      ∧ HeadIs (asked listed 0x16#8 [1#8, 0#8, 1#8, 0#8, 0#8, 40#8, 0#8, 1#8])
          (message 0x16#8 [1#8, 0#8, 1#8, 0#8, 0#8, 40#8, 0#8, 1#8]) [] (.move .place 1 ⟨0, 0, 40, 0, 1⟩)
      ∧ consoleLabel .df ⟨0, 0, 40, 0, 1⟩ = some (2400, false)
      ∧ changeTests listed true ⟨some mixEvent, some (nudged listed { mixRecord with recordIn := 2400 }), none⟩ = none := by
  simp only [HeadIs]; decide +kernel

theorem witness_TrimOutMovesRecordOut :
    HeadIs (asked listed 0x12#8 [2#8, 0#8, 0#8, 0#8, 0#8, 0#8, 1#8]) (message 0x12#8 [2#8, 0#8, 0#8, 0#8, 0#8, 0#8, 1#8]) []
        (.trimOut .ripple 0 1)
      ∧ HeadIs (asked listed 0x12#8 [1#8, 0#8, 0#8, 0#8, 0#8, 0#8, 1#8]) (message 0x12#8 [1#8, 0#8, 0#8, 0#8, 0#8, 0#8, 1#8])
          [] (.trimOut .place 0 1)
      ∧ findEvent listed 0 = some cutEvent ∧ cutEvent.state ≠ .running
      ∧ changeTests listed true ⟨some cutEvent, some (nudged listed { cutRecord with duration := 101 }), none⟩ = none
      ∧ changeTests { listed with store := ⟨[cutEvent, { mixEvent with state := .opened }], 2⟩ } true
          ⟨some cutEvent, some (nudged listed { cutRecord with duration := 101 }), some ⟨1100, 1⟩⟩ = none := by
  simp only [HeadIs]; decide +kernel

theorem witness_DeleteAndClearListRemoveEvents :
    HeadIs (asked listed 0x17#8 [3#8, 0#8, 1#8]) (message 0x17#8 [3#8, 0#8, 1#8]) [] (.delete .leaveGap 1)
      ∧ HeadIs (asked listed 0x17#8 [2#8, 0#8, 1#8]) (message 0x17#8 [2#8, 0#8, 1#8]) [] (.delete .ripple 1)
      ∧ changeTests listed true ⟨some mixEvent, none, none⟩ = none
      ∧ changeTests listed true ⟨some mixEvent, none, some ⟨endOffset listed mixRecord, -(mixRecord.extent : Int)⟩⟩ = none
      ∧ HeadIs (asked listed 0x1f#8 []) (message 0x1f#8 []) [] .clearList ∧ listed.run.phase = .idle
      ∧ (inPhase listed .held).run.phase ≠ .idle := by
  simp only [HeadIs]; decide +kernel

theorem witness_LookupsReadTheList :
    HeadIs (asked listed 0x18#8 [0#8, 1#8]) (message 0x18#8 [0#8, 1#8]) [] (.readEvent 1)
      ∧ findEvent listed 1 = some mixEvent ∧ findEvent listed 2 = none
      ∧ HeadIs (asked listed 0x18#8 [0#8, 2#8]) (message 0x18#8 [0#8, 2#8]) [] (.readEvent 2)
      ∧ HeadIs (asked listed 0x19#8 [0#8, 1#8]) (message 0x19#8 [0#8, 1#8]) [] (.readOrdinal 1)
      ∧ HeadIs (asked listed 0x19#8 [0#8, 2#8]) (message 0x19#8 [0#8, 2#8]) [] (.readOrdinal 2)
      ∧ listed.store.events.length = 2
      ∧ HeadIs (asked listed 0x1c#8 []) (message 0x1c#8 []) [] .count
      ∧ HeadIs (asked listed 0x1a#8 [0#8, 0#8]) (message 0x1a#8 [0#8, 0#8]) [] (.next 0) ∧ ordinalOf listed 0 = some 0
      ∧ HeadIs (asked listed 0x1a#8 [0#8, 1#8]) (message 0x1a#8 [0#8, 1#8]) [] (.next 1) ∧ ordinalOf listed 1 = some 1
      ∧ HeadIs (asked listed 0x1a#8 [0xff#8, 0xff#8]) (message 0x1a#8 [0xff#8, 0xff#8]) [] (.next 65535)
      ∧ HeadIs (asked listed 0x1b#8 [0#8, 1#8]) (message 0x1b#8 [0#8, 1#8]) [] (.previous 1)
      ∧ HeadIs (asked listed 0x1b#8 [0#8, 0#8]) (message 0x1b#8 [0#8, 0#8]) [] (.previous 0)
      ∧ HeadIs (asked listed 0x1b#8 [0xff#8, 0xff#8]) (message 0x1b#8 [0xff#8, 0xff#8]) [] (.previous 65535)
      ∧ HeadIs (asked suite 0x1a#8 [0xff#8, 0xff#8]) (message 0x1a#8 [0xff#8, 0xff#8]) [] (.next 65535)
      ∧ suite.store.events = [] ∧ ordinalOf listed 2 = none
      ∧ HeadIs (asked listed 0x1a#8 [0#8, 2#8]) (message 0x1a#8 [0#8, 2#8]) [] (.next 2)
      ∧ HeadIs (asked listed 0x1b#8 [0#8, 2#8]) (message 0x1b#8 [0#8, 2#8]) [] (.previous 2) := by
  simp only [HeadIs]; decide +kernel

/-- 00:00:16:20 field 1 is position 1,000, the cut's first; 00:00:18:10 is 1,100, one past its last; 00:00:33:20 is 2,020. -/
theorem witness_PositionLookupsFindCoveringEvent :
    HeadIs (asked listed 0x1d#8 [0#8, 0#8, 16#8, 20#8, 1#8, 0#8]) (message 0x1d#8 [0#8, 0#8, 16#8, 20#8, 1#8, 0#8]) []
        (.findAt ⟨0, 0, 16, 20, 1⟩ 0)
      ∧ consoleLabel .df ⟨0, 0, 16, 20, 1⟩ = some (1000, false) ∧ trackOf? 0 = some .v ∧ trackOf? 5 = none
      ∧ coveringEvent listed .v 1000 = some cutEvent ∧ cutRecord.source2 = none
      ∧ consoleLabel .df ⟨0, 0, 18, 10, 1⟩ = some (1100, false) ∧ coveringEvent listed .v 1100 = none
      ∧ HeadIs (asked listed 0x1e#8 [0#8, 0#8, 33#8, 20#8, 1#8, 0#8]) (message 0x1e#8 [0#8, 0#8, 33#8, 20#8, 1#8, 0#8]) []
          (.matchFrame ⟨0, 0, 33, 20, 1⟩ 0)
      ∧ consoleLabel .df ⟨0, 0, 33, 20, 1⟩ = some (2020, false) ∧ coveringEvent listed .v 2020 = some mixEvent
      ∧ foldDiff (dayRec listed) 2029 mixRecord.recordIn < ((mixRecord.transition.getD 0 : Nat) : Int)
      ∧ ((mixRecord.transition.getD 0 : Nat) : Int) ≤ foldDiff (dayRec listed) 2030 mixRecord.recordIn := by
  simp only [HeadIs]; decide +kernel

/-! ### The Machine Controller's requests -/

/-- No parameter carried. -/
def noParams : ConfigureParams := ⟨none, none, none, none, none, none, none, none, none, none⟩

/-- A label mode carried. -/
def modeParam (n : Nat) : ConfigureParams := { noParams with mode := some n }

/-- The recorder M0: to be unconfigured, and to change its label mode while the run is HELD. -/
theorem witness_ConfigureMachineWritesRecord_recorder :
    (HeadIs (asked suite 0x20#8 [0#8, 0#8, 0#8, 0#8]) (message 0x20#8 [0#8, 0#8, 0#8, 0#8]) []
          (.configureMachine .u0 0 noParams)
        ∧ modeKnown noParams = true ∧ paramsInRange .s525 noParams = true)
      ∧ (let s := inPhase suite .held;
        HeadIs (asked s 0x20#8 [0#8, 1#8, 0#8, 1#8, 1#8]) (message 0x20#8 [0#8, 1#8, 0#8, 1#8, 1#8]) []
            (.configureMachine .u0 1 (modeParam 1))
          ∧ modeKnown (modeParam 1) = true ∧ paramsInRange .s525 (modeParam 1) = true
          ∧ (s.machine .u0).configured = true ∧ (s.machine .u0).claimed = false ∧ anyReferences s .u0 = false
          ∧ (mergeParams (s.machine .u0).params (modeParam 1)).mode ≠ (s.machine .u0).params.mode
          ∧ s.recorder = some .u0 ∧ s.run.phase ≠ .idle) := by
  simp only [HeadIs]; decide +kernel

/-- CONFIGURE MACHINE of M3: with a label mode of NDF, of an unknown mode 3, of mode 25 under 525; and without parameters. -/
theorem witness_ConfigureMachineWritesRecord :
    (HeadIs (asked suite 0x20#8 [3#8, 1#8, 0#8, 1#8, 1#8]) (message 0x20#8 [3#8, 1#8, 0#8, 1#8, 1#8]) []
          (.configureMachine .u3 1 (modeParam 1))
        ∧ modeKnown (modeParam 1) = true ∧ paramsInRange .s525 (modeParam 1) = true
        ∧ (suite.machine .u3).configured = true ∧ (suite.machine .u3).claimed = false ∧ anyReferences suite .u3 = false
        ∧ (mergeParams (suite.machine .u3).params (modeParam 1)).mode ≠ (suite.machine .u3).params.mode
        ∧ suite.recorder ≠ some .u3)
      ∧ ((State.reset.machine .u3).configured = false ∧ paramsInRange .s525 noParams = true
        ∧ (mergeParams (suite.machine .u3).params noParams).mode = (suite.machine .u3).params.mode)
      ∧ (modeKnown (modeParam 3) = false
        ∧ HeadIs (asked suite 0x20#8 [3#8, 1#8, 0#8, 1#8, 3#8]) (message 0x20#8 [3#8, 1#8, 0#8, 1#8, 3#8]) []
          (.configureMachine .u3 1 (modeParam 3)))
      ∧ (modeKnown (modeParam 2) = true ∧ paramsInRange .s525 (modeParam 2) = false
        ∧ HeadIs (asked suite 0x20#8 [3#8, 2#8, 0#8, 0#8]) (message 0x20#8 [3#8, 2#8, 0#8, 0#8]) []
          (.configureMachine .u3 2 noParams)
        ∧ HeadIs (asked suite 0x20#8 [3#8, 0#8, 0#8, 0#8]) (message 0x20#8 [3#8, 0#8, 0#8, 0#8]) []
          (.configureMachine .u3 0 noParams))
      ∧ anyReferences listed .u1 = true := by
  simp only [HeadIs]; decide +kernel

/-- M2 can be commanded; its shuttle limit is 8,192. -/
theorem witness_TransportRequestsPlaceMotion :
    ((suite.machine .u2).configured = true ∧ (suite.machine .u2).claimed = false ∧ (suite.machine .u2).following = false
        ∧ TakesMotion suite .u2 ∧ suite.stopAsserted = false)
      ∧ TakesMotion (withPort suite .u2 (fun p => { p with queue := editOns 3 })) .u2
      ∧ TakesMotion (withPort suite .u2 (fun p => { p with queue := ⟨.play, none⟩ :: editOns 3 })) .u2
      ∧ HeadIs (asked suite 0x24#8 [2#8]) (message 0x24#8 [2#8]) [] (.stop .u2)
      ∧ HeadIs (asked suite 0x25#8 [2#8]) (message 0x25#8 [2#8]) [] (.play .u2)
      ∧ HeadIs (asked suite 0x26#8 [2#8, 0x20#8, 0#8]) (message 0x26#8 [2#8, 0x20#8, 0#8]) [] (.shuttle .u2 8192)
      ∧ HeadIs (asked suite 0x26#8 [2#8, 0x20#8, 1#8]) (message 0x26#8 [2#8, 0x20#8, 1#8]) [] (.shuttle .u2 8193)
      ∧ HeadIs (asked suite 0x26#8 [2#8, 0xe0#8, 0#8]) (message 0x26#8 [2#8, 0xe0#8, 0#8]) [] (.shuttle .u2 (-8192))
      ∧ HeadIs (asked suite 0x26#8 [2#8, 0xdf#8, 0xff#8]) (message 0x26#8 [2#8, 0xdf#8, 0xff#8]) [] (.shuttle .u2 (-8193))
      ∧ (suite.machine .u2).params.shuttleLimit = 8192
      ∧ HeadIs (asked suite 0x27#8 [2#8, 0#8, 1#8, 0#8, 0#8, 1#8]) (message 0x27#8 [2#8, 0#8, 1#8, 0#8, 0#8, 1#8]) []
          (.locate .u2 ⟨0, 1, 0, 0, 1⟩)
      ∧ consoleLabel .df ⟨0, 1, 0, 0, 1⟩ = some (3600, true) := by
  simp only [HeadIs, TakesMotion]; decide +kernel

theorem witness_TransportRefusalsInOrder :
    (State.reset.machine .u2).configured = false
      ∧ ((withMachine suite .u2 (fun r => { r with claimed := true })).machine .u2).claimed = true
      ∧ ((chained.machine .u2).claimed = false ∧ (chained.machine .u2).following = true)
      ∧ (withPort suite .u2 (fun p => { p with link := .offline })).link .u2 = .offline
      ∧ (withPort suite .u2 (fun p => { p with link := .localMode })).link .u2 = .localMode
      ∧ ((stopOn suite).stopAsserted = true ∧ (stopOn suite).link .u2 = .online)
      ∧ ¬ TakesMotion (withPort suite .u2 (fun p => { p with queue := editOns 4 })) .u2
      ∧ HeadIs (asked suite 0x24#8 [2#8]) (message 0x24#8 [2#8]) [] (.stop .u2)
      ∧ HeadIs (asked suite 0x25#8 [2#8]) (message 0x25#8 [2#8]) [] (.play .u2)
      ∧ HeadIs (asked suite 0x26#8 [2#8, 0#8, 0#8]) (message 0x26#8 [2#8, 0#8, 0#8]) [] (.shuttle .u2 0)
      ∧ HeadIs (asked suite 0x27#8 [2#8, 0#8, 1#8, 0#8, 0#8, 1#8]) (message 0x27#8 [2#8, 0#8, 1#8, 0#8, 0#8, 1#8]) []
          (.locate .u2 ⟨0, 1, 0, 0, 1⟩)
      ∧ labelInRange .df ⟨0, 1, 0, 0, 1⟩ = true := by
  simp only [HeadIs, TakesMotion]; decide +kernel

/-- M0 follows M1 and so on to M7: M7 following M0 would close the loop. Half the DF day is 2,589,408. -/
theorem witness_FollowAndUnfollowSetLeader :
    (HeadIs (asked chained 0x28#8 [7#8, 0#8, 0#8, 0x27#8, 0x82#8, 0xe0#8])
          (message 0x28#8 [7#8, 0#8, 0#8, 0x27#8, 0x82#8, 0xe0#8]) [] (.follow .u7 .u0 2589408)
        ∧ chainReaches chained .u7 8 .u0 = true ∧ (chained.machine .u7).claimed = false
        ∧ -((dayOf chained .u7 : Nat) : Int) < 2 * 2589408 ∧ 2 * (2589408 : Int) ≤ ((dayOf chained .u7 : Nat) : Int))
      ∧ (chainReaches chained .u0 8 .u7 = false ∧ chained.link .u0 = .online ∧ chained.stopAsserted = false
        ∧ (stopOn chained).stopAsserted = true ∧ -((dayOf chained .u0 : Nat) : Int) < 2 * (-2589407))
      ∧ HeadIs (asked chained 0x29#8 [0#8]) (message 0x29#8 [0#8]) [] (.unfollow .u0)
      ∧ (chained.machine .u0).following = true ∧ (chained.machine .u7).following = false
      ∧ TakesMotion chained .u0
      ∧ ¬ TakesMotion (withPort chained .u0 (fun p => { p with queue := editOns 4 })) .u0
      ∧ ((withMachine suite .u2 (fun r => { r with claimed := true })).machine .u2).claimed = true := by
  simp only [HeadIs, TakesMotion]; decide +kernel

/-- FOLLOW of M3 by itself, beyond half the day at either end, claimed, OFFLINE and LOCAL; and of machines not configured. -/
theorem witness_FollowAndUnfollowSetLeader_refused :
    HeadIs (asked suite 0x28#8 [3#8, 3#8, 0#8, 0#8, 0#8, 0#8]) (message 0x28#8 [3#8, 3#8, 0#8, 0#8, 0#8, 0#8]) []
        (.follow .u3 .u3 0)
      ∧ (HeadIs (asked suite 0x28#8 [3#8, 4#8, 0#8, 0x27#8, 0x82#8, 0xe1#8])
          (message 0x28#8 [3#8, 4#8, 0#8, 0x27#8, 0x82#8, 0xe1#8]) [] (.follow .u3 .u4 2589409)
        ∧ ((dayOf suite .u3 : Nat) : Int) < 2 * 2589409 ∧ 2 * (-2589408 : Int) ≤ -((dayOf suite .u3 : Nat) : Int))
      ∧ (HeadIs (asked suite 0x28#8 [3#8, 4#8, 0#8, 0#8, 0#8, 0#8]) (message 0x28#8 [3#8, 4#8, 0#8, 0#8, 0#8, 0#8]) []
          (.follow .u3 .u4 0)
        ∧ (suite.machine .u3).configured = true ∧ (suite.machine .u4).configured = true
        ∧ chainReaches suite .u3 8 .u4 = false ∧ (suite.machine .u3).claimed = false)
      ∧ ((withMachine suite .u3 (fun r => { r with claimed := true })).machine .u3).claimed = true
      ∧ (withPort suite .u3 (fun p => { p with link := .offline })).link .u3 = .offline
      ∧ (withPort suite .u3 (fun p => { p with link := .localMode })).link .u3 = .localMode
      ∧ (State.reset.machine .u3).configured = false
      ∧ HeadIs (asked State.reset 0x29#8 [3#8]) (message 0x29#8 [3#8]) [] (.unfollow .u3) := by
  simp only [HeadIs]; decide +kernel

theorem witness_MarksStoreEstimate :
    HeadIs (asked suite 0x2a#8 [4#8]) (message 0x2a#8 [4#8]) [] (.markIn .u4)
      ∧ HeadIs (asked suite 0x2b#8 [4#8]) (message 0x2b#8 [4#8]) [] (.markOut .u4)
      ∧ HeadIs (asked suite 0x2c#8 [4#8]) (message 0x2c#8 [4#8]) [] (.clearMarks .u4)
      ∧ (suite.machine .u4).quality = .stale ∧ (suite.machine .u4).configured = true
      ∧ (State.reset.machine .u4).configured = false
      ∧ ((withMachine suite .u4 (fun r => { r with quality := .ctl, position := some 0 })).machine .u4).quality ≠ .stale
      ∧ ((withMachine suite .u4 (fun r => { r with quality := .ctl, position := some 0 })).machine .u4).position = some 0 := by
  simp only [HeadIs]; decide +kernel

/-! ### The machine ports -/

/-- A port's queue and link. -/
def portOf (link : LinkState) (queue : List QueuedRequest) : Port := { Port.reset with link, queue }

theorem witness_PortHoldsRequestsByKind :
    (portOf .online (editOns 2 ++ ⟨.play, none⟩ :: editOns 1)).link = .online
      ∧ (∀ y ∈ editOns 2, y.request.isMotion = false) ∧ DeckRequest.play.isMotion = true
      ∧ (∀ y ∈ (portOf .online (editOns 4)).queue, y.request.isMotion = false)
      ∧ (portOf .online (editOns 3)).queue.length < 4 ∧ 4 ≤ (portOf .online (editOns 4)).queue.length
      ∧ (portOf .online (editOns 4)).headOnLine = false
      ∧ ([] : List QueuedRequest).length + ((editOns 4).filter (fun y => !y.request.isEditOn)).length < 4
      ∧ List.filter (fun y : QueuedRequest => !y.request.isEditOn)
            [⟨.play, none⟩, ⟨.editOff TrackSet.vOnly, none⟩, ⟨.editOff TrackSet.vOnly, none⟩, ⟨.editOff TrackSet.vOnly, none⟩]
          = [] ++ ⟨.play, none⟩ :: List.replicate 3 ⟨.editOff TrackSet.vOnly, none⟩
      ∧ (portOf .absent []).link = .absent ∧ (portOf .offline []).link = .offline
      ∧ (portOf .localMode []).link = .localMode := by decide

/-- A port of a suite listening, with a request on the line, the field start not yet taken. -/
def listening (queue : List QueuedRequest) : State :=
  { withPort suite .u2 (fun p =>
      { p with
        queue := queue
        exchange := some ⟨queue.head?, !queue.isEmpty, pollFrame, false, 0, .listening []⟩ }) with
    waiting := allReceivers }

theorem witness_ExchangeFaultsAreCounted :
    ((listening []).link .u2 = .online
        ∧ ((listening []).port .u2).exchange = some ⟨none, false, pollFrame, false, 0, .listening []⟩
        ∧ ((listening []).port .u2).errors + 1 < ((listening []).machine .u2).params.faultLimit
        ∧ (listening []).waiting.contains (.port .u2) = true)
      ∧ (((listening (editOns 1)).port .u2).queue = editOns 1
        ∧ ((listening (editOns 1)).port .u2).headOnLine = true)
      ∧ ((inPhase (listening (editOns 1)) .editing).run.phase = .editing)
      ∧ checkFails (listening []) .u2 [0x95#8] false = true ∧ checkFails (listening []) .u2 [0x86#8] true = true
      ∧ classify [] = .incomplete := by decide +kernel

/-- M2, claimed by a run in POSTROLL, with a request on the line and a hold pending or none. -/
def postrolling (s : State) (pending : Option PendingHold) : State :=
  let u := withMachine s .u2 (fun r => { r with claimed := true })
  { u with run := { u.run with phase := .postroll, current := some 0, holdPending := pending } }

/-- A fault in POSTROLL: M2 at its fault limit with nothing on the line, and with the EDIT ON of the current event. -/
theorem witness_FaultLimitTakesPortOffline_postroll :
    (let atLimit := fun queue => withPort (listening queue) .u2 (fun p => { p with errors := 1 });
      let s := postrolling (atLimit []) none;
      (s.link .u2 = .online ∧ (s.machine .u2).params.faultLimit ≤ (s.port .u2).errors + 1
        ∧ (s.port .u2).exchange = some ⟨none, false, pollFrame, false, 0, .listening []⟩
        ∧ checkFails s .u2 [0x86#8] true = true ∧ (s.machine .u2).claimed = true ∧ s.run.phase = .postroll)
        ∧ (let s := postrolling (atLimit (editOns 1)) none;
          (s.port .u2).queue = [⟨.editOn TrackSet.vOnly, some 0⟩] ∧ (s.port .u2).headOnLine = true
            ∧ s.run.current = some 0)
        ∧ ((postrolling (atLimit []) (some ⟨.holdRequest, none⟩)).run.holdPending = some ⟨.holdRequest, none⟩)
        ∧ (postrolling (atLimit []) (some ⟨.lockLost, some .u0⟩)).run.holdPending = some ⟨.lockLost, some .u0⟩) := by
  decide +kernel

theorem witness_FaultLimitTakesPortOffline :
    (let s := withPort (listening []) .u2 (fun p => { p with errors := 1 });
      s.link .u2 = .online ∧ (s.machine .u2).params.faultLimit ≤ (s.port .u2).errors + 1
        ∧ s.waiting.contains (.port .u2) = true ∧ (s.port .u2).waiting = true
        ∧ checkFails s .u2 [0x86#8] true = true)
      ∧ (⟨none, false, pollFrame, false, 0, .completed false⟩ : Exchange).progress = .completed false := by decide +kernel

/-- The STATUS of R198's example: M2 playing, 00:09:59;27 field 2, label valid. -/
def statusChars : List Byte := [0x86#8, 0x80#8, 0x01#8, 0x00#8, 0x09#8, 0x59#8, 0x27#8, 0x03#8, 0x8c#8]

/-- The payload those characters carry. -/
def statusPayload : StatusPayload := ⟨.playing, 0x00#8, 0x09#8, 0x59#8, 0x27#8, true, true, false⟩

/-- M2 parked at the same label; and at TAPE OUT without a label. Their exclusive-ORs are 72h and 03h. -/
def parkedChars : List Byte := [0x86#8, 0x80#8, 0x04#8, 0x00#8, 0x09#8, 0x59#8, 0x27#8, 0x07#8, 0x8d#8]

def tapeOutChars : List Byte := [0x86#8, 0x80#8, 0x05#8, 0x00#8, 0x00#8, 0x00#8, 0x00#8, 0x00#8, 0xfc#8]

def parkedPayload : StatusPayload := ⟨.parked, 0x00#8, 0x09#8, 0x59#8, 0x27#8, true, true, true⟩

/-- M2 listening and LOCATING. -/
def locating (queue : List QueuedRequest) (l : Locate) : State :=
  withMachine (listening queue) .u2 (fun r => { r with control := .locating, locate := some l })

/-- The lock window is 1: 35,959 lies within it of 35,960, and not of 35,961. -/
theorem witness_StatusUpdatesMachine :
    ((listening []).link .u2 ≠ .absent ∧ statusOf (listening []) .u2 statusChars = some statusPayload
        ∧ statusPosition .df statusPayload = some 35959
        ∧ statusPosition .df { statusPayload with labelValid := false } = none
        ∧ ((listening []).machine .u2).control = .free)
      ∧ (let s := locating [⟨.locate 35960, none⟩] ⟨35960, .console, false, 0⟩;
        (s.machine .u2).locate = some ⟨35960, .console, false, 0⟩ ∧ (s.port .u2).headOnLine = true
          ∧ (s.port .u2).queue.head?.any (fun y => y.request.isLocate) = true)
      ∧ (let s := locating [] ⟨35960, .console, true, 2⟩;
        (s.machine .u2).control = .locating ∧ (s.machine .u2).locate = some ⟨35960, .console, true, 2⟩
          ∧ statusOf s .u2 parkedChars = some parkedPayload ∧ parkedPayload.transport ≠ .tapeOut
          ∧ statusPosition (modeOf s .u2) parkedPayload = some 35959
          ∧ (foldDiff (dayOf s .u2) 35959 35960).natAbs ≤ (s.machine .u2).params.lockWindow
          ∧ ¬ (foldDiff (dayOf s .u2) 35959 35961).natAbs ≤ (s.machine .u2).params.lockWindow
          ∧ statusPayload.transport ≠ .tapeOut ∧ statusPayload.parked = false ∧ TakesMotion s .u2
          ∧ ((s.port .u2).headOnLine = true → (s.port .u2).queue ≠ []) ∧ (1 : Nat) < 2)
      ∧ (statusOf (locating [] ⟨5, .run, true, 0⟩) .u2 tapeOutChars).map StatusPayload.transport = some .tapeOut
      ∧ (inPhase (locating [] ⟨5, .run, true, 0⟩) .cueing).run.phase = .cueing
      ∧ ¬ TakesMotion (locating (editOns 4) ⟨35961, .console, true, 0⟩) .u2 := by
  simp only [TakesMotion]; decide +kernel

theorem witness_NaksEndExchange :
    replyClass (listening []) .u2 [0x81#8, 0x81#8, 0x01#8, 0xfe#8] = some .nakRefused
      ∧ replyClass (listening []) .u2 [0x81#8, 0x81#8, 0x02#8, 0xfd#8] = some .nakLocal
      ∧ ((listening (editOns 1)).port .u2).queue = editOns 1
      ∧ ((listening [⟨.locate 5, none⟩]).port .u2).queue = [⟨.locate 5, none⟩]
      ∧ ((listening [⟨.editOff TrackSet.vOnly, none⟩]).port .u2).headOnLine = true
      ∧ (let s := withMachine (listening [⟨.locate 5, none⟩]) .u2
            (fun r => { r with control := .locating, locate := some ⟨5, .console, false, 0⟩ });
          (s.machine .u2).control = .locating ∧ (s.machine .u2).locate = some ⟨5, .console, false, 0⟩)
      ∧ (withPort (listening []) .u2 (fun p => { p with link := .offline })).link .u2 = .offline
      ∧ (withPort (listening []) .u2 (fun p => { p with link := .localMode })).link .u2 = .localMode
      ∧ (inPhase (withMachine (listening []) .u2 (fun r => { r with claimed := true })) .rolling).run.phase = .rolling := by
  decide +kernel

/-- NAK LOCAL in POSTROLL, at an ONLINE and at an OFFLINE port of a claimed machine. -/
theorem witness_NaksEndExchange_postroll :
    (let s := postrolling (listening []) none;
      replyClass s .u2 [0x81#8, 0x81#8, 0x02#8, 0xfd#8] = some .nakLocal ∧ s.link .u2 = .online
        ∧ (s.machine .u2).claimed = true ∧ s.run.phase = .postroll)
      ∧ (let s := postrolling (withPort (listening []) .u2 (fun p => { p with link := .offline })) none;
        replyClass s .u2 [0x81#8, 0x81#8, 0x02#8, 0xfd#8] = some .nakLocal ∧ s.link .u2 = .offline
          ∧ (s.machine .u2).claimed = true ∧ s.run.phase = .postroll) := by decide +kernel

/-- A refused LOCATE of the run in CUEING and in HELD, a refused EDIT ON of the current event and of another, and NAK LOCAL at
an OFFLINE port of a machine claimed in EDITING. -/
theorem witness_NaksEndExchange_run :
    (let s := withMachine (listening [⟨.locate 5, none⟩]) .u2
        (fun r => { r with control := .locating, locate := some ⟨5, .run, false, 0⟩, claimed := true });
      replyClass s .u2 [0x81#8, 0x81#8, 0x01#8, 0xfe#8] = some .nakRefused ∧ s.link .u2 = .online
        ∧ (s.port .u2).headOnLine = true ∧ (s.machine .u2).locate = some ⟨5, .run, false, 0⟩
        ∧ (inPhase s .cueing).run.phase = .cueing ∧ (inPhase s .held).run.phase ≠ .cueing)
      ∧ (let s := inPhase (listening (editOns 1)) .editing;
        replyClass s .u2 [0x81#8, 0x81#8, 0x01#8, 0xfe#8] = some .nakRefused ∧ (s.port .u2).headOnLine = true
          ∧ (s.port .u2).queue = [⟨.editOn TrackSet.vOnly, some 0⟩] ∧ s.run.current ≠ some 0
          ∧ ({ s with run := { s.run with current := some 0 } }).run.current = some 0)
      ∧ (let s := inPhase (withMachine (withPort (listening []) .u2 (fun p => { p with link := .offline })) .u2
            (fun r => { r with claimed := true })) .editing;
        replyClass s .u2 [0x81#8, 0x81#8, 0x02#8, 0xfd#8] = some .nakLocal ∧ s.link .u2 = .offline
          ∧ (s.machine .u2).claimed = true ∧ s.run.phase = .editing) := by decide +kernel

theorem witness_DeckLinkEventsChangePortAlone :
    (let s := withPort (listening []) .u2 (fun p => { p with link := .offline, recovery := 1 });
      s.waiting.contains (.port .u2) = true ∧ s.link .u2 = .offline ∧ (s.port .u2).recovery ≤ 1)
      ∧ (suite.link .u2 ≠ .absent ∧ (suite.machine .u2).params.ctlEnable = true)
      ∧ State.reset.link .u2 = .absent
      ∧ (⟨none, false, pollFrame, false, 0, .sending⟩ : Exchange).progress = .sending
      ∧ classify ([] ++ [0x86#8]) = .incomplete
      ∧ classify ([0x86#8, 0x80#8, 0x01#8, 0x00#8, 0x09#8, 0x59#8, 0x27#8] ++ [0x03#8]) = .incomplete := by decide +kernel

/-- M2 listening, chasing the timeline without terms, the clock at the target; its STATUS gives the estimate 35,959. -/
def chasing (control : ControlState) (inWindow outWindow target : Nat) : State :=
  { withMachine (listening []) .u2 (fun r =>
      { r with control := control, leader := .timeline, inWindow := inWindow, outWindow := outWindow }) with
    timeline := { suite.timeline with field := some ⟨0, .field1⟩, clock := some ⟨0, target⟩ } }

/-- A LOCKED claimed machine in ROLLING, before the sync deadline and after it, by a STATUS and by a stale count of 8. -/
theorem witness_LockFollowsEvaluations_rolling :
    (let rolling := fun s : State => inPhase (withMachine s .u2 (fun r => { r with claimed := true })) .rolling;
      let s := rolling (chasing .locked 0 3 35955);
      let t := rolling (withMachine (chasing .locked 0 0 35959) .u2 (fun r => { r with stale := 7 }));
      (statusOf s .u2 statusChars = some statusPayload ∧ statusError s .u2 statusPayload = some (-4)
        ∧ (s.machine .u2).control = .locked ∧ (s.machine .u2).claimed = true ∧ s.run.phase = .rolling
        ∧ s.run.deadlinePassed = false)
        ∧ (t.waiting.contains (.machine .u2) = true ∧ (t.machine .u2).tcUpdated = false ∧ ctlEstimate t .u2 = none
          ∧ (t.machine .u2).stale = 7 ∧ (t.machine .u2).claimed = true ∧ t.run.phase = .rolling)
        ∧ ({ s with run := { s.run with deadlinePassed := true } }).run.deadlinePassed = true) := by decide +kernel

/-- A LOCKED machine of a run in POSTROLL, by a STATUS and by a stale count of 8; and of a run in EDITING by the latter. -/
theorem witness_LockFollowsEvaluations_claimed :
    (let s := postrolling (chasing .locked 0 3 35955) none;
      statusOf s .u2 statusChars = some statusPayload ∧ statusError s .u2 statusPayload = some (-4)
        ∧ (s.machine .u2).control = .locked ∧ (s.machine .u2).claimed = true ∧ s.run.phase = .postroll)
      ∧ (let s := postrolling (withMachine (chasing .locked 0 0 35959) .u2 (fun r => { r with stale := 7 })) none;
        s.waiting.contains (.machine .u2) = true ∧ (s.machine .u2).configured = true
          ∧ (s.machine .u2).tcUpdated = false ∧ ctlEstimate s .u2 = none ∧ (s.machine .u2).stale = 7
          ∧ (s.machine .u2).claimed = true ∧ s.run.phase = .postroll ∧ (inPhase s .editing).run.phase = .editing) := by
  decide +kernel

/-- The lock window is 1, the lock count 8, the unlock count 4 by default: |e| = 1 locks, |e| = 4 unlocks. -/
theorem witness_LockFollowsEvaluations :
    (let s := chasing .chasing 7 0 35960;
      statusOf s .u2 statusChars = some statusPayload ∧ statusError s .u2 statusPayload = some 1
        ∧ (s.machine .u2).control = .chasing ∧ (1 : Int).natAbs ≤ (s.machine .u2).params.lockWindow
        ∧ (s.machine .u2).params.lockCount ≤ (s.machine .u2).inWindow + 1)
      ∧ (let s := chasing .locked 0 3 35955;
        statusError s .u2 statusPayload = some (-4) ∧ (s.machine .u2).control = .locked
          ∧ (s.machine .u2).params.lockWindow + 2 < (-4 : Int).natAbs
          ∧ (s.machine .u2).params.unlockCount ≤ (s.machine .u2).outWindow + 1 ∧ (s.machine .u2).claimed = false)
      ∧ (let s := inPhase (withMachine (chasing .locked 0 3 35955) .u2 (fun r => { r with claimed := true })) .editing;
        (s.machine .u2).claimed = true ∧ s.run.phase = .editing ∧ statusError s .u2 statusPayload = some (-4))
      ∧ (let s := withMachine (chasing .locked 0 0 35959) .u2 (fun r => { r with stale := 7 });
        s.waiting.contains (.machine .u2) = true ∧ (s.machine .u2).configured = true
          ∧ (s.machine .u2).tcUpdated = false ∧ ctlEstimate s .u2 = none ∧ (s.machine .u2).stale = 7
          ∧ (s.machine .u2).claimed = false) := by
  decide +kernel

/-- The CTL count gives the estimate up to a tally of 255 frames. -/
theorem witness_EstimateAndServoFollowEachUpdate :
    (let s := withPort (chasing .chasing 0 0 35970) .u2 (fun p =>
        { p with ctlAnchor := some 35950, ctlCounter := 4, ctlTally := 255 });
      s.waiting.contains (.machine .u2) = true ∧ (s.machine .u2).configured = true
        ∧ (s.machine .u2).tcUpdated = false ∧ (s.port .u2).ctlAnchor = some 35950
        ∧ (s.machine .u2).params.ctlEnable = true ∧ (s.port .u2).ctlTally < 256
        ∧ currentPosition s = some 35970 ∧ s.stopAsserted = false ∧ (s.machine .u2).control = .chasing ∧ TakesMotion s .u2)
      ∧ 256 ≤ ((withPort (chasing .locked 0 0 35970) .u2 (fun p => { p with ctlTally := 256 })).port .u2).ctlTally
      ∧ (let s := withMachine (chasing .locked 0 0 35970) .u2 (fun r => { r with tcUpdated := true, stale := 6 });
        (s.machine .u2).tcUpdated = true ∧ (s.machine .u2).stale < 7)
      ∧ (let s := chasing .chasing 7 0 35960;
        s.link .u2 = .online ∧ statusOf s .u2 statusChars = some statusPayload
          ∧ statusPosition (modeOf s .u2) statusPayload = some 35959 ∧ positionAt s 0 = some 35960
          ∧ (s.machine .u2).leader = .timeline ∧ (s.machine .u2).terms = none)
      ∧ (let s := chasing .locked 0 2 35955;
        (s.machine .u2).control = .locked ∧ (s.machine .u2).claimed = false
          ∧ (s.machine .u2).outWindow + 1 < (s.machine .u2).params.unlockCount) := by
  simp only [TakesMotion]; decide +kernel

/-! ### The Run Controller -/

/-- The cut's event as a run holds it. -/
def runningCut : Event := cutEvent.taken

/-- The run times of the cut, worked out from R125: preroll 300, edit delay 4, sync margin 60, postroll 120. -/
def cutTimes : RunTimes :=
  { t0 := 700, editOns := [⟨996, TrackSet.vOnly⟩], e0 := 996, syncDeadline := 940, editOff := 1096, postrollEnd := 1220 }

theorem test_run_times_of_the_cut : runTimesOf LabelMode.df.day 4 RunParams.reset cutRecord = cutTimes := by decide +kernel

/-- The run of the cut in a phase and mode, RANGE scope, at a timeline position from 700 on; M0 and M1 claimed. -/
def running (phase : Phase) (mode : RunMode) (control : ControlState) (position : Nat) : State :=
  { withMachine (withMachine listed .u0 (fun r => { r with claimed := true, control := control })) .u1
      (fun r => { r with claimed := true, control := control }) with
    store := ⟨[runningCut, mixEvent], 2⟩
    timeline := { suite.timeline with field := some ⟨position - 700, .field1⟩, clock := some ⟨0, 700⟩ }
    run := { suite.run with
      phase := phase, mode := some mode, scope := some (.range 0 5000), current := some 0, copy := some runningCut
      prior := some ⟨.opened, ⟨false, false⟩⟩, times := some cutTimes, inForce := some RunParams.reset }
    waiting := allReceivers }

theorem witness_RollStartsClockAndChase :
    (let s := running .cueing .record .parked 700;
      s.waiting.contains .run = true ∧ s.run.phase = .cueing ∧ s.run.copy = some runningCut ∧ s.run.times = some cutTimes
        ∧ s.timeline.field = some ⟨0, .field1⟩ ∧ Parity.field1 = parityOf cutTimes.t0
        ∧ (∀ m ∈ eventMachines s runningCut.record, (s.machine m).control = .parked) ∧ TakesMotion s .u0) := by
  simp only [TakesMotion]; decide +kernel

/-- The timeout in force is 3,600: the count 3,599 reaches it. -/
theorem witness_CueTimeoutAndSyncDeadlineHold :
    (let s := running .cueing .record .locating 700;
      let s := { s with run := { s.run with cueingCount := 3599 } };
      s.waiting.contains .run = true ∧ s.run.phase = .cueing ∧ cueTimeoutInForce s ≤ min 7200 (s.run.cueingCount + 1)
        ∧ firstNot s .parked = some .u0)
      ∧ (let s := running .rolling .record .chasing 940;
        s.run.phase = .rolling ∧ s.run.times = some cutTimes ∧ currentPosition s = some 940
          ∧ cutTimes.syncDeadline = 940 ∧ firstNot s .locked = some .u0)
      ∧ firstNot (running .rolling .record .locked 940) .locked = none
      ∧ (∀ x ∈ cutTimes.editOns, x.position ≠ 940) := by decide +kernel

/-- The recorder's port OFFLINE and LOCAL at E0, and full at the edit-off field. -/
theorem witness_EditFieldsPlaceEditRequests_refused :
    ((withPort (running .rolling .record .locked 996) .u0 (fun p => { p with link := .offline })).link .u0 = .offline
      ∧ (withPort (running .rolling .record .locked 996) .u0 (fun p => { p with link := .localMode })).link .u0 = .localMode)
      ∧ (let s := withPort (running .editing .record .locked 1096) .u0 (fun p => { p with queue := editOns 4 });
        s.link .u0 = .online ∧ ¬ (s.port .u0).queue.length < 4 ∧ currentPosition s = some 1096) := by decide +kernel

theorem witness_EditFieldsPlaceEditRequests :
    (let s := running .rolling .record .locked 996;
      s.waiting.contains .run = true ∧ s.run.times = some cutTimes ∧ currentPosition s = some 996
        ∧ s.run.copy = some runningCut ∧ s.recorder = some .u0 ∧ s.run.phase = .rolling
        ∧ cutTimes.editOns.find? (fun y => y.position == 996) = some ⟨996, TrackSet.vOnly⟩
        ∧ cutTimes.syncDeadline ≠ 996 ∧ cutTimes.editOff ≠ 996 ∧ cutTimes.postrollEnd ≠ 996 ∧ cutTimes.e0 = 996
        ∧ s.run.mode = some .record ∧ s.link .u0 = .online ∧ (s.port .u0).queue.length < 4)
      ∧ (running .rolling .preview .locked 996).run.mode = some .preview
      ∧ ¬ ((withPort (running .rolling .record .locked 996) .u0
            (fun p => { p with queue := editOns 4 })).port .u0).queue.length < 4
      ∧ ((withPort (running .rolling .record .locked 996) .u0
            (fun p => { p with queue := editOns 3 })).port .u0).queue.length < 4
      ∧ (let s := running .editing .record .locked 1096;
        s.run.phase = .editing ∧ currentPosition s = some 1096 ∧ (∀ x ∈ cutTimes.editOns, x.position ≠ 1096)
          ∧ cutTimes.editOff = 1096 ∧ cutTimes.postrollEnd ≠ 1096)
      ∧ (withPort (running .editing .record .locked 1096) .u0 (fun p => { p with link := .offline })).link .u0 = .offline := by
  decide +kernel

/-- The cut with postroll 0 and an edit delay of 0: the edit-off field and the postroll end are both at 1,100. -/
def endingTogether (mode : RunMode) : State :=
  let s := running .editing mode .locked 1100
  { s with run := { s.run with
      times := some { cutTimes with editOns := [⟨1000, TrackSet.vOnly⟩], e0 := 1000, editOff := 1100, postrollEnd := 1100 } } }

theorem witness_PostrollEndCompletesEvent_together :
    (let s := endingTogether .record;
      s.waiting.contains .run = true ∧ s.run.phase = .editing ∧ currentPosition s = some 1100 ∧ s.run.current = some 0
        ∧ s.run.copy = some runningCut ∧ s.recorder = some .u0 ∧ s.run.mode = some .record ∧ s.link .u0 = .online
        ∧ (s.port .u0).queue.length < 4
        ∧ (withPort s .u0 (fun p => { p with link := .offline })).link .u0 = .offline
        ∧ (withPort s .u0 (fun p => { p with link := .localMode })).link .u0 = .localMode
        ∧ ¬ ((withPort s .u0 (fun p => { p with queue := editOns 4 })).port .u0).queue.length < 4)
      ∧ (endingTogether .preview).run.mode = some .preview := by decide +kernel

theorem witness_PostrollEndCompletesEvent :
    (let s := running .postroll .record .locked 1220;
      s.waiting.contains .run = true ∧ s.run.phase = .postroll ∧ s.run.times = some cutTimes
        ∧ currentPosition s = some 1220 ∧ cutTimes.postrollEnd = 1220 ∧ s.run.current = some 0
        ∧ findEvent s 0 = some runningCut ∧ s.run.holdPending = none ∧ s.run.scope = some (.range 0 5000))
      ∧ (let s := running .postroll .preview .locked 1220;
        let s := { s with run := { s.run with scope := some (.single 0), holdPending := some ⟨.lockLost, some .u1⟩ } };
        s.run.scope = some (.single 0) ∧ s.run.holdPending = some ⟨.lockLost, some .u1⟩) := by decide +kernel

/-- The first state of a run from `listed` over the whole list, and over nothing. -/
theorem witness_RunMakesFirstTake :
    (HeadIs (asked listed 0x30#8 [1#8, 0#8, 0#8, 0#8]) (message 0x30#8 [1#8, 0#8, 0#8, 0#8]) [] (.run 1 (.single 0))
        ∧ runModeOf? 1 = some .record ∧ listed.run.phase = .idle ∧ listed.recorder ≠ none
        ∧ findEvent listed 0 = some cutEvent ∧ findEvent listed 2 = none)
      ∧ HeadIs (asked listed 0x30#8 [0#8, 1#8, 0#8, 0#8, 0#8, 0#8, 1#8, 0#8, 1#8, 0#8, 2#8, 1#8])
          (message 0x30#8 [0#8, 1#8, 0#8, 0#8, 0#8, 0#8, 1#8, 0#8, 1#8, 0#8, 2#8, 1#8]) []
          (.run 0 (.range ⟨0, 0, 0, 0, 1⟩ ⟨0, 1, 0, 2, 1⟩))
      ∧ takeSearch listed .record 0 5000 ⟨0, none⟩ = some cutEvent
      ∧ takeSearch listed .record 1001 5000 ⟨1001, none⟩ = none
      ∧ TakeOpen listed cutEvent
      ∧ validateTake (withPort listed .u1 (fun p => { p with link := .offline })) cutRecord cutTimes
          = some (.machineOffline, some .u1)
      ∧ cleared.recorder = none ∧ (inPhase listed .held).run.phase ≠ .idle := by
  simp only [HeadIs, TakeOpen, TakesMotion]; decide +kernel

theorem witness_RunMakesFirstTake_scope :
    convertScope listed (.single 0) = .ok ⟨.single 0, [], false⟩
      ∧ convertScope listed (.range ⟨0, 0, 0, 0, 1⟩ ⟨0, 1, 0, 2, 1⟩) = .ok ⟨.range 0 3600, [], false⟩
      ∧ convertScope listed (.range ⟨0, 1, 0, 2, 1⟩ ⟨0, 0, 0, 0, 1⟩) = .ok ⟨.range 3600 0, [], false⟩ := ⟨rfl, rfl, rfl⟩

theorem witness_HoldAndAbortStopRun :
    HeadIs (asked (running .rolling .record .chasing 800) 0x31#8 []) (message 0x31#8 []) [] .hold
      ∧ HeadIs (asked (running .rolling .record .chasing 800) 0x32#8 []) (message 0x32#8 []) [] .abort
      ∧ (running .rolling .record .chasing 800).run.phase.active = true
      ∧ (running .rolling .record .chasing 800).run.holdPending = none
      ∧ (⟨.lockLost, some .u1⟩ : PendingHold).cause ≠ .holdRequest
      ∧ suite.run.phase = .idle ∧ (inPhase listed .held).run.phase = .held
      ∧ (let s := withPort (running .editing .record .locked 1000) .u0
            (fun p => { p with queue := editOns 3, exchange := some ⟨none, true, pollFrame, false, 0, .sending⟩ });
          let s := { s with run := { s.run with editSet := TrackSet.vOnly } };
          s.recorder = some .u0 ∧ s.link .u0 = .online ∧ s.run.editSet.isEmpty = false ∧ (s.port .u0).queue = editOns 3
            ∧ (s.port .u0).headOnLine = true ∧ (editOns 2).length < 3) := by
  simp only [HeadIs]; decide +kernel

/-- The run HELD on an event that is OPEN again. -/
def held (scope : Scope) : State :=
  { listed with run :=
      { suite.run with
        phase := .held, mode := some .record, scope := some scope, current := some 0, holdCause := some .operatorAbort } }

/-- SKIP with the current event deleted: the cursor stays, and the cut is found; its take fails while M0 is LOCAL. -/
theorem witness_ResumeTakesAgain_deleted :
    (let s := { held (.range 0 5000) with run := { (held (.range 0 5000)).run with current := some 5 } };
      s.run.phase = .held ∧ s.run.scope = some (.range 0 5000) ∧ s.run.current.bind (findEvent s) = none
        ∧ s.run.cursor = ⟨0, none⟩ ∧ takeSearch s .record 0 5000 ⟨0, none⟩ = some cutEvent ∧ TakeOpen s cutEvent
        ∧ validateTake (withPort s .u0 (fun p => { p with link := .localMode })) cutRecord cutTimes
            = some (.machineLocal, some .u0)) := by
  simp only [TakeOpen, TakesMotion]; decide +kernel

theorem witness_ResumeTakesAgain :
    HeadIs (asked suite 0x33#8 []) (message 0x33#8 []) [] .resumeRetry ∧ suite.run.phase ≠ .held
      ∧ HeadIs (asked suite 0x34#8 []) (message 0x34#8 []) [] .resumeSkip
      ∧ (held (.single 0)).run.phase = .held ∧ (held (.single 0)).run.current.bind (findEvent (held (.single 0))) = some cutEvent
      ∧ TakeOpen (held (.single 0)) cutEvent ∧ (held (.single 0)).run.scope = some (.single 0)
      ∧ (held (.range 0 5000)).run.scope = some (.range 0 5000) ∧ findEvent (held (.range 0 5000)) 0 = some cutEvent
      ∧ (inPhase suite .held).run.current.bind (findEvent (inPhase suite .held)) = none
      ∧ validateTake (withPort (held (.single 0)) .u0 (fun p => { p with link := .localMode })) cutRecord cutTimes
          = some (.machineLocal, some .u0)
      ∧ takeSearch (held (.range 0 5000)) .record 0 5000 ⟨1000, some 0⟩ = none
      ∧ takeSearch (held (.range 0 5000)) .record 0 5000 ⟨0, none⟩ = some cutEvent := by
  simp only [HeadIs, TakeOpen, TakesMotion]; decide +kernel

/-- The preroll at 60 and 59, and the sync margin one below the preroll and at it. -/
theorem witness_RunSettingsRequests :
    HeadIs (asked (held (.single 0)) 0x35#8 []) (message 0x35#8 []) [] .resetRun
      ∧ (held (.single 0)).run.phase = .held ∧ suite.run.phase ≠ .held
      ∧ HeadIs (asked suite 0x37#8 [9#8, 0#8, 60#8, 0#8, 59#8]) (message 0x37#8 [9#8, 0#8, 60#8, 0#8, 59#8]) []
          (.setRunParameters (some 60) none none (some 59))
      ∧ HeadIs (asked suite 0x37#8 [9#8, 0#8, 60#8, 0#8, 60#8]) (message 0x37#8 [9#8, 0#8, 60#8, 0#8, 60#8]) []
          (.setRunParameters (some 60) none none (some 60))
      ∧ HeadIs (asked suite 0x37#8 [1#8, 0#8, 59#8]) (message 0x37#8 [1#8, 0#8, 59#8]) []
          (.setRunParameters (some 59) none none none) := by
  simp only [HeadIs]; decide +kernel

/-! ### The Cue Unit and the Effects Generator -/

theorem witness_CueRequestsSetLine :
    HeadIs (asked suite 0x3c#8 [7#8, 1#8]) (message 0x3c#8 [7#8, 1#8]) [] (.setCueLine 7 1)
      ∧ polarityOf? 1 = some .activeLow ∧ Unit8.ofNat? 7 = some .u7
      ∧ HeadIs (asked suite 0x3c#8 [8#8, 0#8]) (message 0x3c#8 [8#8, 0#8]) [] (.setCueLine 8 0)
      ∧ HeadIs (asked suite 0x3c#8 [0#8, 2#8]) (message 0x3c#8 [0#8, 2#8]) [] (.setCueLine 0 2)
      ∧ HeadIs (asked suite 0x3d#8 [7#8, 255#8]) (message 0x3d#8 [7#8, 255#8]) [] (.fire 7 255)
      ∧ HeadIs (asked suite 0x3d#8 [7#8, 1#8]) (message 0x3d#8 [7#8, 1#8]) [] (.fire 7 1)
      ∧ HeadIs (asked suite 0x3d#8 [7#8, 0#8]) (message 0x3d#8 [7#8, 0#8]) [] (.fire 7 0)
      ∧ HeadIs (asked suite 0x3d#8 [8#8, 1#8]) (message 0x3d#8 [8#8, 1#8]) [] (.fire 8 1)
      ∧ suite.stopAsserted = false ∧ (stopOn suite).stopAsserted = true := by
  simp only [HeadIs]; decide +kernel

/-- A cue line of the run at position 800. -/
def withLine (l : CueLine) : State :=
  setCueLine (running .rolling .record .chasing 800) .u3 l

theorem witness_CueLinesCountAndFire :
    (let s := withLine { CueLine.reset with armed := some ⟨800, 5⟩, buffered := some ⟨801, 6⟩ };
      s.waiting.contains .cue = true ∧ s.stopAsserted = false ∧ currentPosition s = some 800
        ∧ 0 ≤ foldDiff (dayRec s) 800 800 ∧ foldDiff (dayRec s) 800 801 < 0
        ∧ (s.cueLine .u3).armed = some ⟨800, 5⟩ ∧ (s.cueLine .u3).buffered = some ⟨801, 6⟩)
      ∧ (let s := withLine { CueLine.reset with armed := some ⟨799, 5⟩, buffered := some ⟨800, 6⟩ };
        0 ≤ foldDiff (dayRec s) 800 799 ∧ (s.cueLine .u3).pendingList = [])
      ∧ (let s := withLine { CueLine.reset with active := true, counter := 1, armed := some ⟨801, 6⟩ };
        (s.cueLine .u3).active = true ∧ (s.cueLine .u3).counter = 1) := by decide +kernel

theorem witness_StopInputStopsSuite :
    (let s := running .rolling .record .chasing 800;
      s.waiting.contains .cue = true ∧ s.stopAsserted = false ∧ s.run.phase.active = true
        ∧ (s.machine .u0).configured = true)
      ∧ (let s := { listed with waiting := allReceivers };
        s.run.phase.active = false ∧ s.waiting.contains .cue = true ∧ TakesMotion s .u0)
      ∧ (let s := stopOn { listed with waiting := allReceivers };
        s.stopAsserted = true ∧ (s.cueLine .u0).active = false ∧ (s.cueLine .u0).armed = none) := by
  simp only [TakesMotion]; decide +kernel

/-- BLACK is 8; the last line of the 525 picture is 239; FFFFh asks for no line. -/
theorem witness_SelectAndReadRequests :
    HeadIs (asked suite 0x38#8 [8#8]) (message 0x38#8 [8#8]) [] (.select 8)
      ∧ HeadIs (asked suite 0x38#8 [9#8]) (message 0x38#8 [9#8]) [] (.select 9)
      ∧ HeadIs (asked suite 0x38#8 [7#8]) (message 0x38#8 [7#8]) [] (.select 7) ∧ Unit8.ofNat? 7 = some .u7
      ∧ HeadIs (asked suite 1#8 []) (message 1#8 []) [] .readStatus
      ∧ HeadIs (asked suite 0x39#8 [0#8, 239#8]) (message 0x39#8 [0#8, 239#8]) [] (.readEffects 239)
      ∧ HeadIs (asked suite 0x39#8 [0#8, 240#8]) (message 0x39#8 [0#8, 240#8]) [] (.readEffects 240)
      ∧ HeadIs (asked suite 0x39#8 [0xff#8, 0xff#8]) (message 0x39#8 [0xff#8, 0xff#8]) [] (.readEffects 65535)
      ∧ suite.timeline.standard.lines = 240
      ∧ HeadIs (asked suite 0x23#8 [7#8]) (message 0x23#8 [7#8]) [] (.readMachine .u7)
      ∧ HeadIs (asked suite 0x36#8 []) (message 0x36#8 []) [] .readRun
      ∧ HeadIs (asked suite 0x3e#8 [7#8]) (message 0x3e#8 [7#8]) [] (.readCueLine 7)
      ∧ HeadIs (asked suite 0x3e#8 [8#8]) (message 0x3e#8 [8#8]) [] (.readCueLine 8) := by
  simp only [HeadIs]; decide +kernel

/-- A MIX of 30 fields at 1,000, or a WIPE. -/
def effectRecord (wipe : Option Wipe) : Record :=
  { mixRecord with kind := if wipe = none then .mix else .wipe, recordIn := 1000, wipe := wipe }

/-- The run at a position, the effects programmed with that event. -/
def effecting (wipe : Option Wipe) (position : Nat) : State :=
  { running .editing .record .locked position with
    effects := { suite.effects with programme := some ⟨0, 0, .running, ⟨false, false⟩, effectRecord wipe⟩ } }

/-- The fields before the record in, at step 0, at the last step and at D; a field without V; no clock; the freeze. -/
theorem witness_EffectsFrameEachField :
    (let s := { running .editing .record .locked 1000 with
        effects := { suite.effects with programme := some runningCut } };
      s.waiting.contains .effects = true ∧ s.effects.freeze = false ∧ currentPosition s = some 1000
        ∧ s.effects.programme = some runningCut ∧ s.run.phase = .editing ∧ runningCut.record.tracks.v = true
        ∧ runningCut.record.kind = .cut ∧ foldDiff (dayRec s) 999 runningCut.record.recordIn < 0)
      ∧ (∀ j ∈ [(0 : Nat), 29, 30], ∀ w ∈ [none, some (⟨-720, 1, true⟩ : Wipe)],
        (effecting w (1000 + j)).waiting.contains .effects = true ∧ currentPosition (effecting w (1000 + j)) = some (1000 + j)
          ∧ (effecting w (1000 + j)).effects.programme.map Event.record = some (effectRecord w)
          ∧ (effectRecord w).tracks.v = true ∧ (effectRecord w).source2 = some ⟨.u2, 6000⟩
          ∧ (effectRecord w).transition = some 30 ∧ foldDiff (dayRec suite) (1000 + j) (effectRecord w).recordIn = (j : Int))
      ∧ currentPosition suite = none ∧ ({ cutRecord with tracks := TrackSet.none }).tracks.v = false
      ∧ { suite.effects with freeze := true }.freeze = true
      ∧ (running .cueing .record .locating 700).run.phase = .cueing := by decide +kernel

/-! ### Shared arithmetic -/

/-- The difference at half the DF day, and one above. -/
theorem witness_FoldedDifferenceLiesInHalfDay :
    2589408 < LabelMode.df.day ∧ (2589408 : Int) - 0 ≤ ((LabelMode.df.day / 2 : Nat) : Int)
      ∧ (2589409 : Int) - 0 > ((LabelMode.df.day / 2 : Nat) : Int)
      ∧ (0 : Int) - 2589408 ≤ -((LabelMode.df.day / 2 : Nat) : Int) := by decide

theorem witness_PlainLabelsConvertToFieldNumbers :
    (LabelMode.m25 = .m25 ∧ (25 : Nat) = 25) ∧ (23 : Nat) ≤ 23 ∧ (59 : Nat) ≤ 59 ∧ (24 : Nat) < 25
      ∧ labelInRange .m25 ⟨23, 59, 59, 24, 2⟩ = true ∧ labelInRange .ndf ⟨23, 59, 59, 29, 2⟩ = true := by decide

/-- The frames at which the label number first skips: 1,798 of each ten minutes and 17,982. -/
theorem witness_DropFrameLabelNumbersSkipDropped :
    (2589407 : Nat) < 2589408 ∧ 2 ≤ 17981 % 17982 ∧ 17982 % 17982 < 2 ∧ 17983 % 17982 < 2 ∧ 2 ≤ 17984 % 17982 := by decide

theorem witness_LabelsAndPositionsConvertBack :
    5178815 < LabelMode.df.day ∧ labelInRange .df ⟨0, 1, 0, 1, 2⟩ = true ∧ isDropped .df ⟨0, 1, 0, 1, 2⟩ = true
      ∧ labelInRange .df ⟨0, 10, 0, 0, 1⟩ = true ∧ isDropped .df ⟨0, 10, 0, 0, 1⟩ = false := by decide

theorem witness_StepperOutputsRoundedRamp :
    (1 ≤ 30 ∧ (0 : Int) ≤ 15 ∧ (15 : Int) < 30) ∧ (loadStepper 0 256 30 15).step = 0 ∧ (239 : Nat) < 240 ∧ 1 ≤ (⟨-720, 1, true⟩ : Wipe).sy
      ∧ mixRecord.wipe = none ∧ { mixRecord with wipe := some ⟨-720, 1, true⟩ }.wipe = some ⟨-720, 1, true⟩ := by decide

/-- A box of rows 100 to 179 and columns 200 to 499. -/
def sampleBox : KeyBox := { kx0 := 200, kx1 := 500, ky0 := 100, ky1 := 180, mask := 6 }

theorem witness_SpansCoverColumnsOfB : 720 ≤ 720 ∧ sampleBox.kx0 < sampleBox.kx1 ∧ sampleBox.kx1 ≤ 720 ∧ 719 < 720 := by
  decide

/-- Every line at rest, as STOP_RELEASE finds them. -/
theorem witness_StopInputStopsSuite_release : ∀ g, ((stopOn { listed with waiting := allReceivers }).cueLine g).atRest := by
  intro g; cases g <;> exact ⟨rfl, rfl, rfl, rfl, rfl⟩

/-! ### The manual's worked numbers -/

/-- Section 1.3, worked case, and R11: labels and field numbers. -/
theorem test_labels_of_section_1_3 :
    fieldNumber .df ⟨0, 10, 0, 0, 1⟩ = 35964 ∧ labelOf .df 35664 = ⟨0, 9, 55, 0, 1⟩
      ∧ fieldNumber .ndf ⟨1, 0, 0, 0, 1⟩ = 216000 ∧ labelOf .df 5178516 = ⟨23, 59, 55, 0, 1⟩
      ∧ wrap LabelMode.ndf.day (300 - 600) = 5183700 := by decide +kernel

/-- R198: the POLL frame, and the check character of the example STATUS. -/
theorem test_frames_of_R198 :
    pollFrame = [0x10#8, 0x01#8, 0xEE#8]
      ∧ checkChar [0x86#8, 0x80#8, 0x01#8, 0x00#8, 0x09#8, 0x59#8, 0x27#8, 0x03#8] = 0x8C#8 := by decide

/-- The suite of section 2.7: the recorder M0, M1 and M3 in NDF, M2 in DF. -/
def suite27 : State :=
  let ndf := fun r : MachineRec => { r with params := { r.params with mode := .ndf } }
  withMachine (withMachine (withMachine suite .u0 ndf) .u1 ndf) .u3 ndf

/-- The dissolve of section 2.7, handle 1; its cues are those of section 8.9. -/
def dissolve : Record :=
  { kind := .mix, tracks := ⟨true, true, true, false, false⟩, recordIn := 216300, duration := 600, source1 := ⟨.u2, 35964⟩,
    source2 := some ⟨.u1, 432600⟩, transition := some 30, wipe := none, box := none, split := some (-10), rate := none,
    colour := true,
    cues := [⟨.u2, .recordIn, -30, 4, false⟩, ⟨.u2, .recordOut, 0, 10, false⟩, ⟨.u5, .recordIn, -400, 6, false⟩,
      ⟨.u2, .recordIn, -28, 5, true⟩] }

/-- Handle 2 of section 2.7. -/
def soundCut : Record :=
  { cutRecord with
    tracks := ⟨false, false, false, true, false⟩, recordIn := 216000, duration := 900, source1 := ⟨.u3, 108000⟩
    rate := some 192 }

/-- Handle 0 of section 2.7. -/
def pictureCut : Record :=
  { cutRecord with recordIn := 216000, duration := 300, source1 := ⟨.u1, 432000⟩, colour := true }

/-- The list of section 2.7, added in handle order. -/
def list27 : State :=
  let e := fun (n : Nat) (r : Record) => (⟨n, n, .opened, ⟨false, false⟩, r⟩ : Event)
  { suite27 with store := ⟨listOrder suite27 [e 0 pictureCut, e 1 dissolve, e 2 soundCut], 3⟩ }

/-- The table of keys of section 2.7. -/
theorem test_list_order_of_section_2_7 :
    list27.store.events.map Event.handle = [0, 2, 1]
      ∧ startOffset list27 dissolve = 216290 ∧ dissolve.extent = 610 ∧ endOffset list27 dissolve = 216900
      ∧ startOffset list27 soundCut = 216000 ∧ endOffset list27 soundCut = 216900 ∧ validity list27 dissolve = none := by
  decide +kernel

/-- FIND AT field 216,295 in section 2.7: handle 0 on V, 1 on A1, 2 on A3, none on A4. -/
theorem test_covering_events_of_section_2_7 :
    (coveringEvent list27 .v 216295).map Event.handle = some 0 ∧ (coveringEvent list27 .a1 216295).map Event.handle = some 1
      ∧ (coveringEvent list27 .a3 216295).map Event.handle = some 2 ∧ coveringEvent list27 .a4 216295 = none := by
  decide +kernel

/-- The reply data left by a step. -/
def dataOf (s : State) : List (List Byte) := s.console.replies.map Reply.data

/-- The next state of a command. -/
def after (c : Instr) (s : State) : State :=
  match exec c s with
  | .next t => t
  | .fault _ => s
  | .refused _ => s

/-- MATCH FRAME at 01:00:04:27 field 2 on A1: handle 1, j −5, M2 at 00:09:59;27 field 2, M1 at 02:00:09:27 field 2. -/
theorem test_match_frame_of_section_2_7 :
    dataOf (after .matchFrame (asked list27 0x1e#8 [1#8, 0#8, 4#8, 27#8, 2#8, 1#8]))
      = [[0#8, 1#8, 0xff#8, 0xff#8, 0xff#8, 0xfb#8, 2#8, 0#8, 9#8, 59#8, 27#8, 2#8, 1#8, 2#8, 0#8, 9#8, 27#8, 2#8]] := by
  decide +kernel

/-- COUNT: 3 live events, 509 free slots (section 2.7). -/
theorem test_count_of_section_2_7 : dataOf (after .count (asked list27 0x1c#8 [])) = [[0#8, 3#8, 1#8, 0xfd#8]] := by
  decide +kernel

/-- The example of section 2.9: after the renumbering the keys are numbered by place, and the cursor's number is 0. -/
theorem test_renumbering_of_section_2_9 :
    (let r := fun n : Nat => { cutRecord with recordIn := n };
      let e := fun (h i n : Nat) => (⟨h, i, .opened, ⟨false, false⟩, r n⟩ : Event);
      let s := { suite27 with
        store := ⟨[e 5 4294967001 215000, e 7 4294967294 216000, e 0 4294967295 216000, e 9 4294967100 218000], 4294967295⟩
        run := { suite27.run with cursor := ⟨216000, some 4294967290⟩ } };
      (renumber s).store.events.map (fun x => (x.handle, x.insertion)) = [(5, 0), (7, 1), (0, 2), (9, 3)]
        ∧ (renumber s).store.counter = 4 ∧ (renumber s).run.cursor = ⟨216000, some 0⟩) := by decide +kernel

/-- Section 3.8: the MOVE to 216,300 nudges handle 2's source by 2; −606 is rounded to −604. -/
theorem test_nudge_and_shift_of_section_3_8 :
    nudgeOf 4 216300 (216898 % 4) = 2 ∧ roundShift 4 (-606) = -604 ∧ roundShift 4 (-6) = -4 ∧ roundShift 4 6 = 8 := by
  decide +kernel

/-- Section 5.7's worked case: e is 8, v is 384. -/
theorem test_servo_of_section_5_7 :
    (let s := withMachine suite27 .u2 (fun r =>
        { r with control := .chasing, leader := .timeline, terms := some ⟨216000, 35964, 256⟩, position := some 35856 });
      let s := { s with timeline := { s.timeline with clock := some ⟨0, 215700⟩ } };
      servoError s .u2 (some 215900) = some 8 ∧ servoSpeed s .u2 8 = 384 ∧ servoSpeed s .u2 4000 = 8192
        ∧ sourceTarget s .u2 ⟨216000, 35964, 192⟩ 215900 = 35889) := by decide +kernel

/-- Section 6.4's worked case. -/
theorem test_run_times_of_section_6_4 :
    runTimesOf LabelMode.ndf.day 4 RunParams.reset dissolve
      = { t0 := 216000
          editOns := [⟨216296, TrackSet.vOnly⟩, ⟨216286, ⟨false, true, true, false, false⟩⟩]
          e0 := 216286, syncDeadline := 216240, editOff := 216896, postrollEnd := 217020 } := by decide +kernel

/-- Section 7.4's worked case: the levels of a mix of 30 fields. -/
theorem test_mix_levels_of_section_7_4 :
    [0, 1, 2, 10, 15, 20, 29].map (fun j => ((loadField 240 dissolve).advanceBy j).output) = [0, 9, 17, 85, 128, 171, 247] := by
  decide +kernel

/-- The wipe of section 7.5. -/
def sweep : Wipe := { sx := 120, sy := 239, reverse := false }

/-- Section 7.5's worked case: c at steps 0 and 4, and edges on lines 0, 120 and 239. -/
theorem test_edge_sweep_of_section_7_5 :
    ((loadField 240 { dissolve with wipe := some sweep, transition := some 8 }).advanceBy 4).output = 300
      ∧ edgeStart 240 sweep = -120
      ∧ [0, 120, 239].map (fun l => (edgesFrom (-15) 240 (loadLine sweep)).getD l 0) = [0, 45, 105]
      ∧ [0, 120, 239].map (fun l => (edgesFrom 615 240 (loadLine sweep)).getD l 0) = [615, 675, 720] := by decide +kernel

/-- Section 7.6's worked case: the spans of lines 120 and 50, forward, reversed and under masks 5 and 15. -/
theorem test_spans_of_section_7_6 :
    lineSpans sweep (some sampleBox) 120 360 = [⟨0, 200⟩, ⟨360, 500⟩]
      ∧ lineSpans { sweep with reverse := true } (some sampleBox) 120 360 = [⟨200, 360⟩, ⟨500, 720⟩]
      ∧ lineSpans sweep (some sampleBox) 50 325 = [⟨0, 325⟩]
      ∧ lineSpans sweep (some { sampleBox with mask := 5 }) 120 360 = [⟨0, 200⟩, ⟨500, 720⟩]
      ∧ lineSpans sweep (some { sampleBox with mask := 15 }) 120 360 = [⟨0, 720⟩] := by decide +kernel

/-- Section 8.9: the compares of G2 and G5 after the load in RECORD mode, and in PREVIEW mode without d. -/
theorem test_cues_of_section_8_9 :
    (let e : Event := ⟨1, 1, .opened, ⟨false, false⟩, dissolve⟩;
      let ts := runTimesOf LabelMode.ndf.day 4 RunParams.reset dissolve;
      let s := loadCues suite27 .record e ts;
      (s.cueLine .u2).armed = some ⟨216270, 4⟩ ∧ (s.cueLine .u2).buffered = some ⟨216272, 5⟩
        ∧ (s.cueLine .u2).pendingList = [⟨216900, 10⟩] ∧ (s.cueLine .u5).armed = some ⟨216000, 6⟩
        ∧ ((loadCues suite27 .preview e ts).cueLine .u2).buffered = some ⟨216900, 10⟩) := by decide +kernel

/-- R15: a second good pulse raises the count to 2, and the sixteenth in a row makes the reference PRESENT_WAITING. -/
theorem test_sixteenth_pulse_makes_present_waiting :
    (after (.referencePulse 4004 .field2 []) (pulsed .absent 1)).timeline.goodCount = 2
      ∧ (after (.referencePulse 4004 .field2 []) (pulsed .absent 15)).timeline.refState = .presentWaiting
      ∧ (after (.referencePulse 4004 .field2 []) (pulsed .presentWaiting 16)).timeline.refState = .onReference := by
  decide +kernel

/-- R184, R187: a reply goes out before a notice, and an idle link sends the empty message. -/
theorem test_reply_goes_out_first :
    (after .transferStart (talking 1 [.reference .lost])).console.transfer
        = some ⟨[3#8, 1#8, 7#8, 0#8], .replyQueue, false, 0, false⟩
      ∧ (after .transferStart (talking 0 [])).console.transfer = some fresh := by decide +kernel

/-- R179, R195: after its message the part sends FFh for the rest; in reset the message is the empty one (R201). -/
theorem test_filler_follows_message :
    (after (.transferEnd [0#8, 0#8, 0#8]) (transferring suite fresh)).console.sent = [0#8, 0xff#8, 0xff#8]
      ∧ (after (.transferEnd [0#8, 0#8, 0#8, 0#8, 0#8, 0#8])
          (after .transferStart (talking 1 []))).console.sent = [3#8, 1#8, 7#8, 0#8, 0xff#8, 0xff#8]
      ∧ (after (.transferEnd [2#8, 1#8])
          (after .transferStart { State.reset with inReset := true })).console.sent = [0#8, 0xff#8] := by decide +kernel

/-- R1, R94, R98: SET STANDARD 625 puts every record in mode 25, and M2, which follows M1, has no position in its notice. -/
theorem test_set_standard_moves_every_record :
    (let s := withMachine { cleared with recorder := none } .u2
        (fun r => { r with control := .chasing, leader := .machine .u1 0, position := some 5, quality := .tc });
      let t := after (.setStandard 0) (asked (withMachine s .u7 (fun r => { r with configured := false })) 0x22#8 [1#8]);
      (t.machine .u7).params.mode = .m25 ∧ (t.machine .u2).params.mode = .m25
        ∧ t.console.notices = [.machineState .u2 .online .free false .noLeader none .stale]) := by decide +kernel

/-- R193: the EVENT_STATE of the RUNNING event is among the notices discarded and counted. -/
theorem test_restart_counts_event_state :
    dataOf (after .restart (asked { listed with store := ⟨[cutEvent.taken, mixEvent], 2⟩ } 2#8 []))
      = [[0#8, 0#8, 0#8, 0#8, 0#8, 1#8, 0#8, 0#8]] := by decide +kernel

/-- R35, R36: between the cut and a mix at 4,000, the event added at the counter's end is sent with its ordinal, 1. -/
theorem test_add_reply_after_renumbering :
    (let late := { mixEvent with record := { mixRecord with recordIn := 4000 } };
      let s := asked { suite with store := ⟨[cutEvent, late], 4294967295⟩ } 0x10#8 (addParams 1#8 0x40#8);
      (dataOf (after .add s)).map (fun d => d.take 6) = [[0#8, 2#8, 0#8, 0#8, 0#8, 1#8]]
        ∧ (after .add s).store.events.map Event.insertion = [0, 1, 2] ∧ (after .add s).store.counter = 3) := by
  decide +kernel

/-- R5: LOCATE of a machine that is not configured, to hour 24: NOT_CONFIGURED (log entry 48); configured, BAD_TIMECODE. -/
theorem test_locate_of_unconfigured_machine :
    (after .locate (asked State.reset 0x27#8 [3#8, 24#8, 0#8, 0#8, 0#8, 1#8])).console.replies.map Reply.result
        = [.notConfigured]
      ∧ (after .locate (asked suite 0x27#8 [3#8, 24#8, 0#8, 0#8, 0#8, 1#8])).console.replies.map Reply.result
        = [.badTimecode] := by decide +kernel

/-- R132: in POSTROLL a fault replaces HOLD_REQUEST, and a later fault does not replace the first. -/
theorem test_first_fault_is_deferred :
    (let nak := fun pending =>
        (after (.nakLocal .u2 [0x81#8, 0x81#8, 0x02#8, 0xfd#8]) (postrolling (listening []) pending)).run;
      (nak (some ⟨.holdRequest, none⟩)).holdPending = some ⟨.machineLocal, some .u2⟩
        ∧ (nak (some ⟨.lockLost, some .u0⟩)).holdPending = some ⟨.lockLost, some .u0⟩
        ∧ (nak none).phase = .postroll) := by decide +kernel

/-- R131, R133: at one field start the EDIT OFF is placed, the event is PERFORMED and the run takes the next; with none, it ends. -/
theorem test_edit_off_and_postroll_end_together :
    (let t := after .editOffField (endingTogether .record);
      t.run.eventsDone = 1 ∧ (t.store.events.map Event.state) = [.performed, .performed] ∧ t.run.phase = .idle
        ∧ (t.port .u0).queue.any (fun x => x.request == .editOff TrackSet.vOnly) = true) := by decide +kernel

/-- R173, R13: a FIRE with width 0 under STOP is answered RANGE, and SET ORIGIN in HELD with a list BUSY (log entry 50). -/
theorem test_refusals_in_the_order_named :
    (after .fire (asked (stopOn suite) 0x3d#8 [3#8, 0#8])).console.replies.map Reply.result = [.range]
      ∧ (after .setOrigin (asked (inPhase listed .held) 8#8 [0#8, 0#8, 0#8, 0#8, 1#8])).console.replies.map Reply.result
        = [.busy] := by decide +kernel

/-- R87: the counter stays at its end, and comes back inside on a pulse of the other direction. -/
theorem test_ctl_counter_end :
    ((after (.ctlPulse .u2 false) (withPort suite .u2 (fun p => { p with ctlCounter := -32768 }))).port .u2).ctlCounter = -32768
      ∧ ((after (.ctlPulse .u2 true) (withPort suite .u2 (fun p => { p with ctlCounter := -32768 }))).port .u2).ctlCounter
        = -32767 := by decide +kernel

/-- R103, R104: parked on the target M2 is PARKED; the third parked report off it fails the locate. -/
theorem test_locate_ends :
    ((after (.statusReply .u2 parkedChars) (locating [] ⟨35960, .console, true, 2⟩)).machine .u2).control = .parked
      ∧ ((after (.statusReply .u2 parkedChars) (locating [] ⟨35961, .console, true, 1⟩)).machine .u2).locate
        = some ⟨35961, .console, false, 2⟩
      ∧ (after (.statusReply .u2 parkedChars) (locating [] ⟨35961, .console, true, 2⟩)).console.notices
        = [.machineState .u2 .online .free false .noLeader (some ⟨0, 9, 59, 27, 2⟩) .tc,
          .locateFailed .u2 ⟨0, 9, 59, 28, 2⟩ .mismatch] := by decide +kernel

/-- R198's STATUS gives M2 the estimate 35,959 with quality TC (the position worked out in section 2.7). -/
theorem test_status_gives_estimate :
    ((after (.statusReply .u2 statusChars) (listening [])).machine .u2).position = some 35959
      ∧ ((after (.statusReply .u2 statusChars) (listening [])).machine .u2).quality = .tc := by decide +kernel

/-- R168, R173: FIRE makes a line active for its width; the STOP state refuses it. -/
theorem test_fire_and_stop :
    ((after .fire (asked suite 0x3d#8 [3#8, 9#8])).cueLine .u3).counter = 9
      ∧ (after .fire (asked (stopOn suite) 0x3d#8 [3#8, 9#8])).console.replies.map Reply.result = [.stopped] := by
  decide +kernel

/-- The queue: a step takes the front command, and the rest wait. -/
theorem test_step_takes_front :
    (match step (suite.withPending [.resetRelease, .gapExpiry]) with
      | .next t => t.pending
      | .fault _ => []
      | .refused _ => []) = [.gapExpiry] := by decide +kernel

end Sys2Proof.Tests
end

section
/-! The label conversions of spec/01 (R5 to R10): what a plain label (NDF or mode 25) converts to and that it converts back, and
how the drop-frame label number grows within a block of ten minutes of labels. -/

namespace Sys2Proof.Machine

/-! ### Labels in range, in every mode (R5, R6) -/

theorem labelInRange_iff (mode : LabelMode) (l : Label) :
    labelInRange mode l = true ↔
      l.hours < 24 ∧ l.minutes < 60 ∧ l.seconds < 60 ∧ l.frames < mode.rate ∧ (l.field = 1 ∨ l.field = 2) := by
  simp [labelInRange, and_assoc]

theorem consoleLabel_of_not_dropped {mode : LabelMode} {l : Label} (hl : labelInRange mode l = true)
    (hd : isDropped mode l = false) : consoleLabel mode l = some (fieldNumber mode l, false) := by
  simp [consoleLabel, hl, hd]

/-- The frame of a label's field number is the label's frame. -/
theorem fieldNumber_div_two {mode : LabelMode} {l : Label} (hf : l.field = 1 ∨ l.field = 2) :
    fieldNumber mode l / 2 = frameNumber mode l := by
  unfold fieldNumber
  omega

/-- The parity of a label's field number is the label's field. -/
theorem fieldNumber_mod_two {mode : LabelMode} {l : Label} (hf : l.field = 1 ∨ l.field = 2) :
    fieldNumber mode l % 2 + 1 = l.field := by
  unfold fieldNumber
  omega

/-! ### The plain modes, NDF and 25 (R6, R9) -/

section plain
variable {mode : LabelMode} (plain : mode ≠ .df)
include plain

theorem isDropped_plain (l : Label) : isDropped mode l = false := by
  cases mode with
  | df => exact absurd rfl plain
  | ndf => rfl
  | m25 => rfl

theorem frameNumber_plain (l : Label) :
    frameNumber mode l = ((l.hours * 60 + l.minutes) * 60 + l.seconds) * mode.rate + l.frames := by
  cases mode with
  | df => exact absurd rfl plain
  | ndf => rfl
  | m25 => rfl

theorem labelNumber_plain (frame : Nat) : labelNumber mode frame = frame := by
  cases mode with
  | df => exact absurd rfl plain
  | ndf => rfl
  | m25 => rfl

/-- The day of a plain mode holds two fields for each frame of its 86,400 seconds. -/
theorem day_plain : mode.day = 2 * (86400 * mode.rate) := by
  cases mode with
  | df => exact absurd rfl plain
  | ndf => rfl
  | m25 => rfl

theorem frameNumber_plain_lt {l : Label} (hl : labelInRange mode l = true) : frameNumber mode l < 86400 * mode.rate := by
  obtain ⟨hh, hm, hs, hf, -⟩ := (labelInRange_iff mode l).1 hl
  have second : (l.hours * 60 + l.minutes) * 60 + l.seconds + 1 ≤ 86400 := by omega
  calc frameNumber mode l
      < ((l.hours * 60 + l.minutes) * 60 + l.seconds + 1) * mode.rate := by
        rw [frameNumber_plain plain, Nat.succ_mul]; omega
    _ ≤ 86400 * mode.rate := Nat.mul_le_mul_right _ second

theorem fieldNumber_plain_lt_day {l : Label} (hl : labelInRange mode l = true) : fieldNumber mode l < mode.day := by
  have frame_lt := frameNumber_plain_lt plain hl
  obtain ⟨-, -, -, -, hfield⟩ := (labelInRange_iff mode l).1 hl
  rw [day_plain plain]
  unfold fieldNumber
  omega

/-- A valid plain label is the label of its field number: splitting the frame at the rate, then the seconds at 60 and 3,600, gives
the elements back (R9). -/
theorem labelOf_fieldNumber_plain {l : Label} (hl : labelInRange mode l = true) : labelOf mode (fieldNumber mode l) = l := by
  obtain ⟨hh, hm, hs, hf, hfield⟩ := (labelInRange_iff mode l).1 hl
  have frames : frameNumber mode l % mode.rate = l.frames := by
    rw [frameNumber_plain plain, Nat.mul_add_mod', Nat.mod_eq_of_lt hf]
  have seconds : frameNumber mode l / mode.rate = (l.hours * 60 + l.minutes) * 60 + l.seconds := by
    rw [frameNumber_plain plain, Nat.mul_comm, Nat.mul_add_div (Nat.zero_lt_of_lt hf), Nat.div_eq_of_lt hf, Nat.add_zero]
  rw [labelOf, fieldNumber_div_two hfield, fieldNumber_mod_two hfield, labelNumber_plain plain, frames, seconds]
  obtain ⟨h, m, s, f, field⟩ := l
  dsimp only at hh hm hs ⊢
  congr 1 <;> omega

theorem fieldNumber_plain_injective {l l' : Label} (hl : labelInRange mode l = true) (hl' : labelInRange mode l' = true)
    (h : fieldNumber mode l' = fieldNumber mode l) : l' = l := by
  rw [← labelOf_fieldNumber_plain plain hl', h, labelOf_fieldNumber_plain plain hl]

end plain

/-! ### The drop-frame label number (R10) -/

/-- The label number of the frame `m` of a block, counted from the block's start. Natural subtraction makes the term of R10 zero
for M of 0 and 1, as the rule asks. -/
def blockLabel (m : Nat) : Nat := m + 2 * ((m - 2) / 1798)

/-- Each full block of 17,982 frames takes 18,000 labels. -/
theorem labelNumber_df (n : Nat) : labelNumber .df n = 18000 * (n / 17982) + blockLabel (n % 17982) := by
  have split_block := Nat.div_add_mod n 17982
  simp only [labelNumber, blockLabel]
  split <;> omega

theorem blockLabel_lt {m : Nat} (hm : m < 17982) : blockLabel m < 18000 := by
  unfold blockLabel
  omega

/-- The minute of the block: the first has 1,800 frames and each later one 1,798. -/
theorem blockLabel_div (m : Nat) : blockLabel m / 1800 = if m < 1800 then 0 else 1 + (m - 1800) / 1798 := by
  unfold blockLabel
  split <;> omega

/-- After the block's first two frames, every label lies at place 2 or later of its minute. -/
theorem blockLabel_mod {m : Nat} (hm : 2 ≤ m) : blockLabel m % 1800 = 2 + (m - 2) % 1798 := by
  unfold blockLabel
  omega

/-- The place of a frame's label in its minute is that of the block's label: a block is ten whole minutes. -/
theorem labelNumber_df_mod (n : Nat) : labelNumber .df n % 1800 = blockLabel (n % 17982) % 1800 := by
  rw [labelNumber_df]
  omega

theorem labelNumber_df_minute (n : Nat) : labelNumber .df n / 1800 % 10 = blockLabel (n % 17982) / 1800 := by
  have in_block := blockLabel_lt (Nat.mod_lt n (by decide : 17982 > 0))
  rw [labelNumber_df]
  omega

theorem labelNumber_df_next_block (n : Nat) : labelNumber .df (n + 17982) = labelNumber .df n + 18000 := by
  rw [labelNumber_df, labelNumber_df, Nat.add_mod_right, Nat.add_div_right n (by decide)]
  omega

theorem labelOf_df_minutes (p : Nat) : (labelOf .df p).minutes % 10 = labelNumber .df (p / 2) / 1800 % 10 := by
  simp only [labelOf, LabelMode.rate]
  omega

/-- The label of a position is dropped when its number is one of the first two of a minute that is no multiple of ten (R7). -/
theorem isDropped_labelOf_df (p : Nat) :
    isDropped .df (labelOf .df p) = true ↔
      labelNumber .df (p / 2) % 1800 < 2 ∧ labelNumber .df (p / 2) / 1800 % 10 ≠ 0 := by
  rw [← labelOf_df_minutes]
  simp only [isDropped, labelOf, LabelMode.rate, Bool.and_eq_true, Bool.or_eq_true, beq_iff_eq, bne_iff_ne]
  omega

/-- The first two labels of a minute are reached only in the block's first minute, which drops none. -/
theorem labelOf_df_not_dropped (p : Nat) : isDropped .df (labelOf .df p) = false := by
  rw [← Bool.not_eq_true, isDropped_labelOf_df, labelNumber_df_mod, labelNumber_df_minute, blockLabel_div]
  rintro ⟨place, minute⟩
  by_cases first : p / 2 % 17982 < 2
  · rw [if_pos (by omega)] at minute
    exact minute rfl
  · rw [blockLabel_mod (by omega)] at place
    omega

/-! ### The statements -/

/-- Settles O56: the label of a valid label's field number is the label itself, so no two share a field number. -/
theorem plainLabelsConvertToFieldNumbers : Obligations.PlainLabelsConvertToFieldNumbers := by
  refine ⟨fun mode r l hmode hh hm hs hf hfield => ?_, by decide, by decide, by decide, by decide⟩
  have plain : mode ≠ .df := by rcases hmode with ⟨rfl, -⟩ | ⟨rfl, -⟩ <;> decide
  have rate : mode.rate = r := by rcases hmode with ⟨rfl, rfl⟩ | ⟨rfl, rfl⟩ <;> rfl
  have valid : labelInRange mode l = true := (labelInRange_iff mode l).2 ⟨by omega, by omega, by omega, by omega, hfield⟩
  refine ⟨?_, fieldNumber_plain_lt_day plain valid, fun l' => fieldNumber_plain_injective plain valid⟩
  rw [consoleLabel_of_not_dropped valid (isDropped_plain plain l), fieldNumber, frameNumber_plain plain, rate]

/-- Settles O57: block by block, through the label number counted from the block's start. -/
theorem dropFrameLabelNumbersSkipDropped : Obligations.DropFrameLabelNumbersSkipDropped := by
  refine ⟨fun n _ => ⟨?later, ?early, labelNumber_df_next_block n, ?minute, labelOf_df_not_dropped _, labelOf_df_not_dropped _⟩,
    by decide, by decide, by decide, by decide⟩
  case later => exact fun hm => by rw [labelNumber, if_pos hm]
  case early => exact fun hm => by rw [labelNumber, if_neg (Nat.not_le.2 hm), Nat.add_zero]
  case minute =>
    rw [labelOf_df_minutes, Nat.mul_div_cancel_left n (by decide), labelNumber_df_minute, blockLabel_div]

end Sys2Proof.Machine
end

section
/-! SUPPORT. Facts about lists and numbers that the model's own imports do not hold. -/

namespace Sys2Proof.Machine

/-- A list without repetition is no longer than one that holds all its elements. -/
theorem length_le_of_nodup {α : Type} [BEq α] [LawfulBEq α] {l k : List α} (nodup : l.Nodup) (within : ∀ x ∈ l, x ∈ k) :
    l.length ≤ k.length := by
  induction l generalizing k with
  | nil => exact Nat.zero_le _
  | cons x xs ih =>
    obtain ⟨fresh, rest⟩ := List.nodup_cons.mp nodup
    have hx : x ∈ k := within x List.mem_cons_self
    have shorter : xs.length ≤ (k.erase x).length := ih rest fun y hy =>
      have other : y ≠ x := fun h => fresh (h ▸ hy)
      (List.mem_erase_of_ne other).mpr (within y (List.mem_cons_of_mem _ hy))
    rw [List.length_erase_of_mem hx] at shorter
    have := List.length_pos_of_mem hx
    rw [List.length_cons]
    omega

/-- Where a function tells the elements of a list apart, an element is known by its value. -/
theorem eq_of_pairwise_ne {α β : Type} {f : α → β} {l : List α} (apart : l.Pairwise (fun x y => f x ≠ f y)) {a b : α}
    (ha : a ∈ l) (hb : b ∈ l) (same : f a = f b) : a = b := by
  induction l with
  | nil => cases ha
  | cons x xs ih =>
    obtain ⟨first, rest⟩ := List.pairwise_cons.mp apart
    rcases List.mem_cons.mp ha with hax | hax <;> rcases List.mem_cons.mp hb with hbx | hbx
    · exact hax.trans hbx.symm
    · exact absurd same (hax ▸ first b hbx)
    · exact absurd same.symm (hbx ▸ first a hax)
    · exact ih rest hax hbx

/-- Erased one after the other, the elements of a list are gone and the others stay. -/
theorem mem_foldl_erase {α : Type} [BEq α] [LawfulBEq α] {l : List α} (nodup : l.Nodup) (gone : List α) (x : α) :
    x ∈ gone.foldl List.erase l ↔ x ∈ l ∧ x ∉ gone := by
  induction gone generalizing l with
  | nil => exact ⟨fun h => ⟨h, List.not_mem_nil⟩, fun h => h.1⟩
  | cons y ys ih =>
    rw [List.foldl_cons, ih (nodup.erase y), nodup.mem_erase_iff, List.mem_cons, not_or]
    exact ⟨fun ⟨⟨other, hx⟩, hys⟩ => ⟨hx, other, hys⟩, fun ⟨hx, other, hys⟩ => ⟨⟨other, hx⟩, hys⟩⟩

/-- A number with a property gives the least one. -/
theorem exists_least {p : Nat → Prop} {n : Nat} (h : p n) : ∃ k, p k ∧ ∀ i, p i → k ≤ i := by
  induction n using Nat.strongRecOn with
  | ind n ih =>
    by_cases smaller : ∃ i, i < n ∧ p i
    · obtain ⟨i, hi, hp⟩ := smaller
      exact ih i hi hp
    · exact ⟨n, h, fun i hi => Nat.le_of_not_lt fun hlt => smaller ⟨i, hlt, hi⟩⟩

end Sys2Proof.Machine
end

section
/-! SUPPORT. What a shared operation of the blocks may do, said once as a relation between the state before and after: the
ports stay in their ranges, a record keeps its configuration and parameters, gains no leader machine, and a machine at rest
stays at rest; the link shows nothing but notices. Every invariant of a step is derived from these relations. -/

namespace Sys2Proof.Machine

/-! ### One port, one record, the notices -/

/-- What an operation keeps of a port: the queue fits, the request on the line stands at its head, CTL is in range. -/
structure PortStep (p q : Port) : Prop where
  fits : p.queueFits → q.queueFits
  held : p.lineHeld → q.lineHeld
  ctl : p.ctlFits → q.ctlFits

theorem PortStep.refl (p : Port) : PortStep p p := ⟨id, id, id⟩

theorem PortStep.trans {p q r : Port} (h : PortStep p q) (k : PortStep q r) : PortStep p r :=
  ⟨k.fits ∘ h.fits, k.held ∘ h.held, k.ctl ∘ h.ctl⟩

/-- The record is FREE and has no leader. -/
def MachineRec.rests (x : MachineRec) : Prop := x.control = .free ∧ x.leader = .noLeader

/-- What an operation keeps of a machine record: the configuration and parameters, the counts' ranges, rest; and it gives
no leader. -/
structure RecStep (x y : MachineRec) : Prop where
  configured : y.configured = x.configured
  params : y.params = x.params
  counts : x.countsFit → y.countsFit
  leader : y.leader = x.leader ∨ y.leader = .noLeader
  rests : x.rests → y.rests

theorem RecStep.refl (x : MachineRec) : RecStep x x := ⟨rfl, rfl, id, .inl rfl, id⟩

theorem RecStep.trans {x y z : MachineRec} (h : RecStep x y) (k : RecStep y z) : RecStep x z where
  configured := k.configured.trans h.configured
  params := k.params.trans h.params
  counts := k.counts ∘ h.counts
  leader := by rcases k.leader with k | k <;> simp [k, h.leader]
  rests := k.rests ∘ h.rests

/-- The notice queue stays within its capacity, and a notice that is no MACHINE_STATE is not lost unnoticed (R186, R187). -/
structure NoticesKept (s t : State) : Prop where
  fits : s.console.notices.length ≤ Config.noticeCapacity → t.console.notices.length ≤ Config.noticeCapacity
  noticed : ∀ k : Notice, k.stateMachine? = none → Noticed s k → Noticed t k

theorem NoticesKept.of_console {s t : State} (h : t.console = s.console) : NoticesKept s t :=
  ⟨fun k => h ▸ k, fun _ _ k => by unfold Noticed at *; rwa [h]⟩

theorem NoticesKept.refl (s : State) : NoticesKept s s := .of_console rfl

theorem NoticesKept.trans {s t u : State} (h : NoticesKept s t) (k : NoticesKept t u) : NoticesKept s u :=
  ⟨k.fits ∘ h.fits, fun n hn => k.noticed n hn ∘ h.noticed n hn⟩

theorem NoticesKept.raiseNotice (s : State) (n : Notice) : NoticesKept s (raiseNotice s n) :=
  ⟨ConsolePort.place_fits _ n, fun _ hk => raiseNotice_keeps s n hk⟩

/-! ### Operations on machines -/

/-- What an operation on ports and machine records does. -/
structure MachineStep (s t : State) : Prop where
  only : MachinesOnly s t
  notices : NoticesKept s t
  port : ∀ m, PortStep (s.port m) (t.port m)
  record : ∀ m, RecStep (s.machine m) (t.machine m)

namespace MachineStep

theorem refl (s : State) : MachineStep s s := ⟨.refl s, .refl s, fun _ => .refl _, fun _ => .refl _⟩

theorem trans {s t u : State} (h : MachineStep s t) (k : MachineStep t u) : MachineStep s u :=
  ⟨h.only.trans k.only, h.notices.trans k.notices, fun m => (h.port m).trans (k.port m),
    fun m => (h.record m).trans (k.record m)⟩

theorem setPort {s : State} {m : MachineId} {p : Port} (h : PortStep (s.port m) p) : MachineStep s (s.setPort m p) where
  only := .setPort s m p
  notices := .of_console rfl
  port n := by
    by_cases hn : n = m
    · subst hn; simpa using h
    · rw [State.setPort_port_other s p hn]; exact .refl _
  record n := .refl _

theorem setMachine {s : State} {m : MachineId} {r : MachineRec} (h : RecStep (s.machine m) r) :
    MachineStep s (s.setMachine m r) where
  only := .setMachine s m r
  notices := .of_console rfl
  port n := .refl _
  record n := by
    by_cases hn : n = m
    · subst hn; simpa using h
    · rw [State.setMachine_machine_other s r hn]; exact .refl _

theorem raiseNotice (s : State) (n : Notice) : MachineStep s (raiseNotice s n) :=
  ⟨.raiseNotice s n, .raiseNotice s n, fun _ => .refl _, fun _ => .refl _⟩

theorem foldl {α : Type} {f : State → α → State} (hf : ∀ s a, MachineStep s (f s a)) (l : List α) (s : State) :
    MachineStep s (l.foldl f s) := by
  induction l generalizing s with
  | nil => exact .refl s
  | cons a as ih => exact (hf s a).trans (ih _)

/-- A fold that gathers reports on the way. -/
theorem foldlReports {α : Type} {f : State × List RunReport → α → State × List RunReport}
    (hf : ∀ x a, MachineStep x.1 (f x a).1) (l : List α) (x : State × List RunReport) :
    MachineStep x.1 (l.foldl f x).1 := by
  induction l generalizing x with
  | nil => exact .refl x.1
  | cons a as ih => exact (hf x a).trans (ih _)

end MachineStep

theorem changeMachine_step {s : State} {m : MachineId} {f : MachineRec → MachineRec}
    (h : RecStep (s.machine m) (f (s.machine m))) : MachineStep s (changeMachine s m f) := by
  unfold changeMachine
  split
  · exact .setMachine h
  · exact (MachineStep.setMachine h).trans (.raiseNotice _ _)

/-! ### Records -/

/-- A change that leaves the control state, leader, locate and counts as they are. -/
theorem RecStep.of_same {x y : MachineRec} (hc : y.configured = x.configured) (hp : y.params = x.params)
    (hs : y.stale ≤ x.stale ∨ y.stale ≤ 8) (hi : y.inWindow = x.inWindow) (ho : y.outWindow = x.outWindow)
    (hl : y.locate = x.locate) (hk : y.control = x.control) (hd : y.leader = x.leader) : RecStep x y where
  configured := hc
  params := hp
  counts := fun ⟨a, b, c, d⟩ => ⟨by omega, by rwa [hp, hi], by rwa [hp, ho], by rwa [hl]⟩
  leader := .inl hd
  rests := fun ⟨a, b⟩ => ⟨hk.trans a, hd.trans b⟩

/-- A change to FREE without a locate. -/
theorem RecStep.to_free {x y : MachineRec} (hc : y.configured = x.configured) (hp : y.params = x.params)
    (hs : y.stale = x.stale) (hi : y.inWindow ≤ x.inWindow) (ho : y.outWindow ≤ x.outWindow)
    (hl : y.locate = none ∨ y.locate = x.locate) (hk : y.control = .free) (hd : y.leader = x.leader ∨ y.leader = .noLeader) :
    RecStep x y where
  configured := hc
  params := hp
  counts := fun ⟨a, b, c, d⟩ => ⟨by omega, by rw [hp]; omega, by rw [hp]; omega, by rcases hl with hl | hl <;> simp_all⟩
  leader := hd
  rests := fun ⟨a, b⟩ => ⟨hk, by rcases hd with hd | hd <;> simp [hd, b]⟩

/-- A change of a record that is not FREE, to any control state, without a leader given. -/
theorem RecStep.of_moving {x y : MachineRec} (hx : x.control ≠ .free) (hc : y.configured = x.configured)
    (hp : y.params = x.params) (hk : x.countsFit → y.countsFit) (hd : y.leader = x.leader) : RecStep x y :=
  ⟨hc, hp, hk, .inl hd, fun h => absurd h.1 hx⟩

/-! ### Motion requests -/

theorem Port.offLine_ctl (p : Port) : p.offLine.ctlFits ↔ p.ctlFits := Iff.rfl

theorem Port.placeMotion_step {p p' : Port} {r : DeckRequest} (hr : r.isMotion = true) (h : p.placeMotion r = .ok p') :
    PortStep p p' where
  fits := fun hp => Port.placeMotion_fits hr hp h
  held := fun _ => Port.placeMotion_lineHeld h
  ctl := fun hp => by rw [(Port.placeMotion_spec h).2.2]; exact hp

theorem placeMotion_step {s t : State} {m : MachineId} {r : DeckRequest} (hr : r.isMotion = true)
    (h : placeMotion s m r = .ok t) : MachineStep s t := by
  obtain ⟨p, hp, rfl⟩ := placeMotion_spec h
  exact .setPort (Port.placeMotion_step hr hp)

theorem placeMotion_machine {s t : State} {m : MachineId} {r : DeckRequest} (h : placeMotion s m r = .ok t) (n : MachineId) :
    t.machine n = s.machine n := by
  obtain ⟨p, -, rfl⟩ := placeMotion_spec h
  rfl

theorem updateMachine_step {s : State} {m : MachineId} {f : MachineRec → MachineRec}
    (h : RecStep (s.machine m) (f (s.machine m))) : MachineStep s (updateMachine s m f) := .setMachine h

theorem tryMotion_step (s : State) (m : MachineId) {r : DeckRequest} (hr : r.isMotion = true) (v : Int) :
    MachineStep s (tryMotion s m r v) := by
  unfold tryMotion
  split
  · rename_i t ht
    refine (placeMotion_step hr ht).trans (updateMachine_step ?_)
    exact .of_same rfl rfl (.inl (Nat.le_refl _)) rfl rfl rfl rfl rfl
  · exact .refl s

theorem tryStop_step (s : State) (m : MachineId) : MachineStep s (tryStop s m) := tryMotion_step s m rfl 0

theorem stopIfAsserted_step (s : State) (m : MachineId) (link : LinkState) : MachineStep s (stopIfAsserted s m link) := by
  unfold stopIfAsserted
  split
  · exact tryStop_step s m
  · exact .refl s

/-! ### Locates -/

theorem reportLocateFailure_step (s : State) (m : MachineId) (l : Locate) (target : Label) (reason : LocateReason) :
    MachineStep s (reportLocateFailure s m l target reason).1 := by
  unfold reportLocateFailure
  split
  · exact .raiseNotice s _
  · exact .refl s

theorem failLocate_step (s : State) (m : MachineId) (reason : LocateReason) : MachineStep s (failLocate s m reason).1 := by
  unfold failLocate
  split
  · refine (changeMachine_step ?_).trans (reportLocateFailure_step _ m _ _ _)
    exact .to_free rfl rfl rfl (Nat.le_refl _) (Nat.le_refl _) (.inl rfl) rfl (.inl rfl)
  · exact .refl s

theorem acknowledgeLocate_step (s : State) (m : MachineId) : MachineStep s (acknowledgeLocate s m) := by
  unfold acknowledgeLocate
  split
  · rename_i l hc hl
    refine updateMachine_step (.of_moving (by simp [hc]) rfl rfl (fun ⟨a, b, c, d⟩ => ⟨a, b, c, ?_⟩) rfl)
    rintro k ⟨⟩
    exact d l hl
  · exact .refl s

theorem locateMismatch_step {s : State} {m : MachineId} (l : Locate) (h : (s.machine m).control = .locating) :
    MachineStep s (locateMismatch s m l).1 := by
  unfold locateMismatch
  split
  · rename_i hl
    split
    · rename_i t ht
      refine (placeMotion_step rfl ht).trans (MachineStep.setMachine ?_)
      rw [placeMotion_machine ht]
      refine .of_moving (by simp [h]) rfl rfl (fun ⟨a, b, c, d⟩ => ⟨a, b, c, ?_⟩) rfl
      rintro k ⟨⟩
      exact Nat.le_of_lt_succ hl
    · exact failLocate_step s m _
  · exact failLocate_step s m _

theorem parkOnTarget_step {s : State} {m : MachineId} (l : Locate) (p : Nat) (h : (s.machine m).control = .locating) :
    MachineStep s (parkOnTarget s m l p) := by
  have parked : MachineStep s (changeMachine s m (fun x => { x with control := .parked, locate := none })) :=
    changeMachine_step (.of_moving (by simp [h]) rfl rfl (fun ⟨a, b, c, _⟩ => ⟨a, b, c, by simp⟩) rfl)
  unfold parkOnTarget
  split
  · exact parked.trans (.raiseNotice _ _)
  · exact parked

theorem parkingTest_step (s : State) (m : MachineId) (tr : Transport) (parked : Bool) (update : Option Nat) :
    MachineStep s (parkingTest s m tr parked update).1 := by
  unfold parkingTest
  split
  · rename_i l hc hl
    split
    · exact .refl s
    split
    · exact failLocate_step s m _
    split
    · exact .refl s
    split
    · split
      · exact parkOnTarget_step l _ hc
      · exact locateMismatch_step l hc
    · exact locateMismatch_step l hc
  · exact .refl s

/-! ### Follows, claims, releases -/

theorem cancelFollow_step (s : State) (m : MachineId) : MachineStep s (cancelFollow s m) := by
  unfold cancelFollow dropLeader
  refine (tryStop_step s m).trans (changeMachine_step ?_)
  exact .to_free rfl rfl rfl (Nat.zero_le _) (Nat.zero_le _) (.inr rfl) rfl (.inr rfl)

theorem cancelFollowsOf_step (s : State) (m : MachineId) : MachineStep s (cancelFollowsOf s m) := by
  refine MachineStep.foldl (fun t f => ?_) _ s
  split
  · split
    · exact cancelFollow_step t f
    · exact .refl t
  · exact .refl t
  · exact .refl t

theorem claimMachine_step (s : State) (m : MachineId) : MachineStep s (claimMachine s m) := by
  unfold claimMachine
  split
  · refine (changeMachine_step ?_).trans (reportLocateFailure_step _ m _ _ _)
    exact .to_free rfl rfl rfl (Nat.le_refl _) (Nat.le_refl _) (.inl rfl) rfl (.inl rfl)
  · exact changeMachine_step (.of_same rfl rfl (.inl (Nat.le_refl _)) rfl rfl rfl rfl rfl)

theorem MachineRec.released_step (x : MachineRec) : RecStep x x.released :=
  .to_free rfl rfl rfl (Nat.zero_le _) (Nat.zero_le _) (.inl rfl) rfl (.inr rfl)

theorem releaseMachine_step (s : State) (m : MachineId) : MachineStep s (releaseMachine s m) := by
  unfold releaseMachine
  split
  · exact (tryStop_step s m).trans (changeMachine_step (MachineRec.released_step _))
  · exact .refl s

theorem releaseAll_step (s : State) : MachineStep s (releaseAll s) := .foldl releaseMachine_step _ s

/-! ### The servo and the lock count -/

theorem speedRequest_isMotion (v : Int) : (speedRequest v).isMotion = true := by
  unfold speedRequest; split <;> rfl

theorem servoPlace_step (s : State) (m : MachineId) (e : Int) : MachineStep s (servoPlace s m e) :=
  tryMotion_step s m (speedRequest_isMotion _) _

theorem countsCleared_fits {x : MachineRec} (h : x.countsFit) (c : ControlState) :
    MachineRec.countsFit { x.countsCleared with control := c } := by
  obtain ⟨a, ⟨b, -⟩, ⟨c, -⟩, d⟩ := h
  exact ⟨a, ⟨b, Nat.zero_le _⟩, ⟨c, Nat.zero_le _⟩, d⟩

theorem becomeLocked_step {s : State} {m : MachineId} (h : (s.machine m).control ≠ .free) :
    MachineStep s (becomeLocked s m) :=
  changeMachine_step (.of_moving h rfl rfl (fun k => countsCleared_fits k _) rfl)

theorem becomeUnlocked_step {s : State} {m : MachineId} (h : (s.machine m).control ≠ .free) :
    MachineStep s (becomeUnlocked s m).1 := by
  dsimp only [becomeUnlocked]
  exact changeMachine_step (.of_moving h rfl rfl (fun k => countsCleared_fits k _) rfl)

/-- A lock count stays below the count that it is counted up to (R113, R114). -/
theorem countLock_step (s : State) (m : MachineId) (e : Int) : MachineStep s (countLock s m e).1 := by
  unfold countLock
  split
  · rename_i hc
    split
    · exact becomeLocked_step (by simp [hc])
    · rename_i hl
      refine MachineStep.setMachine (.of_moving (by simp [hc]) rfl rfl (fun ⟨a, b, c, d⟩ => ⟨a, ⟨b.1, ?_⟩, c, d⟩) rfl)
      dsimp only
      split
      · rename_i hw
        simp only [locksAt, hc, hw, beq_self_eq_true, Bool.true_and, decide_eq_true_eq] at hl
        omega
      · exact Nat.zero_le _
  · rename_i hc
    split
    · exact becomeUnlocked_step (by simp [hc])
    · rename_i hl
      refine MachineStep.setMachine (.of_moving (by simp [hc]) rfl rfl (fun ⟨a, b, c, d⟩ => ⟨a, b, ⟨c.1, ?_⟩, d⟩) rfl)
      dsimp only
      split
      · rename_i hw
        simp only [unlocksAt, hc, hw, beq_self_eq_true, Bool.true_and, decide_eq_true_eq] at hl
        omega
      · exact Nat.zero_le _
  all_goals exact .refl s

theorem tcEvaluation_step (s : State) (m : MachineId) (p : Option Nat) : MachineStep s (tcEvaluation s m p).1 := by
  unfold tcEvaluation
  split
  · exact (servoPlace_step s m _).trans (countLock_step _ m _)
  · exact .refl s

theorem ctlEvaluation_step (s : State) (m : MachineId) (p : Option Nat) : MachineStep s (ctlEvaluation s m p) := by
  unfold ctlEvaluation
  split
  · exact servoPlace_step s m _
  · exact .refl s

/-! ### The STOP input and the link state -/

theorem allStopMachine_step (s : State) (m : MachineId) : MachineStep s (allStopMachine s m).1 := by
  have stopped (t : State) : MachineStep t (changeMachine t m (fun x =>
      { x.countsCleared with leader := .noLeader, terms := none, control := .free, locate := none })) :=
    changeMachine_step (.to_free rfl rfl rfl (Nat.zero_le _) (Nat.zero_le _) (.inl rfl) rfl (.inr rfl))
  unfold allStopMachine
  split
  · exact ((tryStop_step s m).trans (stopped _)).trans (reportLocateFailure_step _ m _ _ _)
  · exact (tryStop_step s m).trans (stopped _)

theorem allStop_step (s : State) : MachineStep s (allStop s).1 := by
  refine MachineStep.foldlReports (fun x m => ?_) _ (s, [])
  split
  · exact allStopMachine_step x.1 m
  · exact .refl x.1

theorem MachineRec.afterLink_step (x : MachineRec) (link : LinkState) : RecStep x (x.afterLink link) := by
  unfold MachineRec.afterLink
  split
  any_goals exact .refl x
  all_goals exact .to_free rfl rfl rfl (Nat.le_refl _) (Nat.le_refl _) (.inl rfl) rfl (.inl rfl)

theorem changeLink_step (s : State) (m : MachineId) (link : LinkState) : MachineStep s (changeLink s m link).1 := by
  have linked : MachineStep s (raiseMachineState
      ((s.setPort m { s.port m with link := link }).setMachine m ((s.machine m).afterLink link)) m) := by
    refine (MachineStep.setPort (m := m) (p := { s.port m with link := link }) ⟨id, id, id⟩).trans ?_
    exact (MachineStep.setMachine (MachineRec.afterLink_step _ link)).trans (.raiseNotice _ _)
  unfold changeLink
  refine MachineStep.trans ?_ (stopIfAsserted_step _ m link)
  dsimp only
  split
  · exact linked.trans (reportLocateFailure_step _ m _ _ _)
  · exact linked

/-! ### A STATUS and a NAK -/

/-- An exchange changed, the queue and the CTL count kept: the request on the line is, if any, the one that was. -/
theorem PortStep.of_exchange {p q : Port} (hq : q.queue = p.queue) (hl : q.headOnLine = true → p.headOnLine = true)
    (hc : q.ctlCounter = p.ctlCounter ∧ q.ctlTally = p.ctlTally) : PortStep p q where
  fits := fun h => by unfold Port.queueFits at *; rwa [hq]
  held := fun h k => by rw [hq]; exact h (hl k)
  ctl := fun h => by unfold Port.ctlFits at *; rwa [hc.1, hc.2]

@[simp] theorem Port.withProgress_headOnLine (p : Port) (g : Progress) : (p.withProgress g).headOnLine = p.headOnLine := by
  unfold Port.withProgress Port.headOnLine; cases p.exchange <;> rfl

theorem Port.withProgress_step (p : Port) (g : Progress) : PortStep p (p.withProgress g) :=
  .of_exchange rfl (by simp) ⟨rfl, rfl⟩

theorem Port.offLine_step (p : Port) : PortStep p p.offLine := .of_exchange rfl (by simp) ⟨rfl, rfl⟩

@[simp] theorem Port.completed_headOnLine (p : Port) : p.completed.headOnLine = p.headOnLine :=
  Port.withProgress_headOnLine { p with errors := 0 } _

theorem Port.completed_step (p : Port) : PortStep p p.completed := .of_exchange rfl (by simp) ⟨rfl, rfl⟩

theorem Port.removeOnLine_step (p : Port) : PortStep p p.removeOnLine where
  fits := Port.removeOnLine_fits
  held := fun _ => Port.removeOnLine_lineHeld p
  ctl := fun h => by unfold Port.removeOnLine; split <;> exact h

theorem Port.flushed_step (p : Port) : PortStep p p.flushed :=
  ⟨fun _ => Port.flushed_fits p, fun _ => Port.flushed_lineHeld p, id⟩

theorem Port.anchored_step (p : Port) (n : Nat) : PortStep p (p.anchored n) :=
  ⟨id, id, fun _ => ⟨by simp [Port.anchored], by simp [Port.anchored], Nat.zero_le _⟩⟩

theorem applyStatus_step (s : State) (m : MachineId) (p : StatusPayload) (update : Option Nat) :
    MachineStep s (applyStatus s m p update) := by
  unfold applyStatus
  split
  · exact (MachineStep.setPort (Port.anchored_step _ _)).trans
      (.setMachine (.of_same rfl rfl (.inl (Nat.le_refl _)) rfl rfl rfl rfl rfl))
  · exact .setMachine (.of_same rfl rfl (.inl (Nat.le_refl _)) rfl rfl rfl rfl rfl)

theorem removeOnLine_step (s : State) (m : MachineId) : MachineStep s (s.setPort m (s.port m).removeOnLine) :=
  .setPort (Port.removeOnLine_step _)

theorem answerOnLine_step (s : State) (m : MachineId) : MachineStep s (answerOnLine s m) := by
  unfold answerOnLine
  split
  · split
    · exact (removeOnLine_step s m).trans (acknowledgeLocate_step _ m)
    · exact removeOnLine_step s m
  · exact .refl s

theorem statusApplied_step (s : State) (m : MachineId) (p : StatusPayload) : MachineStep s (statusApplied s m p).1 :=
  (((MachineStep.setPort (Port.completed_step _)).trans (applyStatus_step _ m p _)).trans (parkingTest_step _ m _ _ _)).trans
    (answerOnLine_step _ m)

theorem statusServo_step (s : State) (m : MachineId) (update : Option Nat) : MachineStep s (statusServo s m update).1 := by
  unfold statusServo
  split
  · exact tcEvaluation_step s m _
  · exact .refl s

theorem statusLink_step (s : State) (m : MachineId) : MachineStep s (statusLink s m).1 := by
  unfold statusLink
  split
  · exact changeLink_step s m _
  · exact changeLink_step s m _
  · exact .refl s
  · exact .refl s

theorem refuseOnLine_step (s : State) (m : MachineId) : MachineStep s (refuseOnLine s m).1 := by
  unfold refuseOnLine
  split
  · split
    · exact .setPort (Port.offLine_step _)
    · exact removeOnLine_step s m
    · exact (removeOnLine_step s m).trans (failLocate_step _ m _)
    all_goals exact removeOnLine_step s m
  · exact .refl s

theorem flushLost_step (s : State) (m : MachineId) : MachineStep s (flushLost s m).1 := by
  refine MachineStep.trans (.setPort (Port.flushed_step _)) (MachineStep.foldlReports (fun x q => ?_) _ (_, []))
  split
  · exact failLocate_step x.1 m _
  · exact .refl x.1

end Sys2Proof.Machine
end

section
/-! SUPPORT. What the blocks do between commands, said once: reports, holds, takes and a block's share of a field start keep
the list, the configuration and every range, give no machine a leader machine, and leave a suite at rest under STOP at rest. -/

namespace Sys2Proof.Machine

/-! ### The relation -/

/-- What a block's work keeps, whatever the run does: the list, the configuration, the ranges, the link but for notices. -/
structure BlockFrame (s t : State) : Prop where
  frame : t = { s with
    timeline := { s.timeline with clock := t.timeline.clock }, store := t.store, ports := t.ports,
    machines := t.machines, run := t.run, effects := t.effects, cues := t.cues, console := t.console }
  link : OnlyNotices s t
  notices : NoticesKept s t
  list : listOf t = listOf s
  counter : t.store.counter = s.store.counter
  stop : t.cues.stop = s.cues.stop
  port : ∀ m, PortStep (s.port m) (t.port m)
  configured : ∀ m, (t.machine m).configured = (s.machine m).configured
  params : ∀ m, (t.machine m).params = (s.machine m).params
  counts : ∀ m, (s.machine m).countsFit → (t.machine m).countsFit
  leader : ∀ m, (t.machine m).leader = (s.machine m).leader ∨ (t.machine m).leader = .noLeader
    ∨ (t.machine m).leader = .timeline
  done : s.run.eventsDone ≤ 65535 → t.run.eventsDone ≤ 65535
  cueing : s.run.cueingCount ≤ 7200 → t.run.cueingCount ≤ 7200

/-- A block's work, which also leaves a suite at rest under STOP at rest. -/
structure BlockStep (s t : State) : Prop extends BlockFrame s t where
  rests : s.stopAsserted = true → (s.run.phase.active = false → t.run.phase.active = false)
    ∧ (∀ m, (s.machine m).rests → (t.machine m).rests) ∧ ∀ g, (s.cueLine g).atRest → (t.cueLine g).atRest

namespace BlockFrame

theorem refl (s : State) : BlockFrame s s :=
  ⟨rfl, rfl, .refl s, rfl, rfl, rfl, fun _ => .refl _, fun _ => rfl, fun _ => rfl, fun _ => id, fun _ => .inl rfl, id, id⟩

theorem trans {s t u : State} (h : BlockFrame s t) (k : BlockFrame t u) : BlockFrame s u where
  frame := by rw [k.frame, h.frame]
  link := h.link.trans k.link
  notices := h.notices.trans k.notices
  list := k.list.trans h.list
  counter := k.counter.trans h.counter
  stop := k.stop.trans h.stop
  port m := (h.port m).trans (k.port m)
  configured m := (k.configured m).trans (h.configured m)
  params m := (k.params m).trans (h.params m)
  counts m := k.counts m ∘ h.counts m
  leader m := by
    rcases k.leader m with hk | hk
    · rw [hk]; exact h.leader m
    · exact .inr hk
  done := k.done ∘ h.done
  cueing := k.cueing ∘ h.cueing

section fields
variable {s t : State} (h : BlockFrame s t)
include h

theorem inReset : t.inReset = s.inReset := by rw [h.frame]
theorem now : t.now = s.now := by rw [h.frame]
theorem recorder : t.recorder = s.recorder := by rw [h.frame]
theorem runParams : t.runParams = s.runParams := by rw [h.frame]
theorem waiting : t.waiting = s.waiting := by rw [h.frame]
theorem pending : t.pending = s.pending := by rw [h.frame]
theorem timeline : t.timeline = { s.timeline with clock := t.timeline.clock } := by rw [h.frame]
theorem standard : t.timeline.standard = s.timeline.standard := by rw [h.timeline]
theorem origin : t.timeline.origin = s.timeline.origin := by rw [h.timeline]
theorem goodCount : t.timeline.goodCount = s.timeline.goodCount := by rw [h.timeline]

theorem stopAsserted : t.stopAsserted = s.stopAsserted := by simp [State.stopAsserted, h.stop]

end fields

theorem of_machines {s t : State} (h : MachineStep s t) : BlockFrame s t where
  frame := by rw [h.only.1]
  link := h.only.2
  notices := h.notices
  list := by simp [listOf, h.only.store]
  counter := by rw [h.only.store]
  stop := by rw [h.only.cues]
  port := h.port
  configured m := (h.record m).configured
  params m := (h.record m).params
  counts m := (h.record m).counts
  leader m := (h.record m).leader.imp_right .inl
  done := by rw [h.only.run]; exact id
  cueing := by rw [h.only.run]; exact id

/-- A record changed, its leader kept, dropped or made TIMELINE. -/
theorem setMachine {s : State} {m : MachineId} {r : MachineRec} (hc : r.configured = (s.machine m).configured)
    (hp : r.params = (s.machine m).params) (hk : (s.machine m).countsFit → r.countsFit)
    (hl : r.leader = (s.machine m).leader ∨ r.leader = .noLeader ∨ r.leader = .timeline) :
    BlockFrame s (s.setMachine m r) := by
  have kept (P : MachineRec → MachineRec → Prop) (hr : P (s.machine m) r) (hs : ∀ n, P (s.machine n) (s.machine n)) (n) :
      P (s.machine n) ((s.setMachine m r).machine n) := by
    by_cases hn : n = m
    · subst hn; simpa using hr
    · rw [State.setMachine_machine_other s r hn]; exact hs n
  exact
    { BlockFrame.refl s with
      frame := rfl, link := rfl, notices := .of_console rfl
      configured := kept (fun x y => y.configured = x.configured) hc fun _ => rfl
      params := kept (fun x y => y.params = x.params) hp fun _ => rfl
      counts := kept (fun x y => x.countsFit → y.countsFit) hk fun _ => id
      leader := kept (fun x y => y.leader = x.leader ∨ y.leader = .noLeader ∨ y.leader = .timeline) hl fun _ => .inl rfl }

theorem step_of_released {s t : State} (h : BlockFrame s t) (hr : s.stopAsserted = false) : BlockStep s t :=
  ⟨h, fun hs => by simp [hr] at hs⟩

end BlockFrame

theorem changeMachine_frame {s : State} {m : MachineId} {f : MachineRec → MachineRec}
    (hc : (f (s.machine m)).configured = (s.machine m).configured) (hp : (f (s.machine m)).params = (s.machine m).params)
    (hk : (s.machine m).countsFit → (f (s.machine m)).countsFit)
    (hl : (f (s.machine m)).leader = (s.machine m).leader ∨ (f (s.machine m)).leader = .noLeader
      ∨ (f (s.machine m)).leader = .timeline) :
    BlockFrame s (changeMachine s m f) := by
  unfold changeMachine
  split
  · exact .setMachine hc hp hk hl
  · exact (BlockFrame.setMachine hc hp hk hl).trans (.of_machines (.raiseNotice _ _))

namespace BlockStep

theorem refl (s : State) : BlockStep s s := ⟨.refl s, fun _ => ⟨id, fun _ => id, fun _ => id⟩⟩

theorem trans {s t u : State} (h : BlockStep s t) (k : BlockStep t u) : BlockStep s u :=
  ⟨h.toBlockFrame.trans k.toBlockFrame, fun hs => by
    obtain ⟨tp, tr, tl⟩ := h.rests hs
    obtain ⟨up, ur, ul⟩ := k.rests (h.stopAsserted.trans hs)
    exact ⟨up ∘ tp, fun m => ur m ∘ tr m, fun g => ul g ∘ tl g⟩⟩

theorem of_machines {s t : State} (h : MachineStep s t) : BlockStep s t :=
  ⟨.of_machines h, fun _ => ⟨by rw [h.only.run]; exact id, fun m => (h.record m).rests,
    fun g => by unfold State.cueLine; rw [h.only.cues]; exact id⟩⟩

theorem raiseNotice (s : State) (n : Notice) : BlockStep s (raiseNotice s n) := .of_machines (.raiseNotice s n)

/-- The run record changed, its counts kept in their ranges and an inactive phase inactive. -/
theorem updateRun {s : State} {f : RunRecord → RunRecord} (hd : s.run.eventsDone ≤ 65535 → (f s.run).eventsDone ≤ 65535)
    (hc : s.run.cueingCount ≤ 7200 → (f s.run).cueingCount ≤ 7200)
    (hp : s.run.phase.active = false → (f s.run).phase.active = false) : BlockStep s (s.updateRun f) where
  frame := rfl
  link := rfl
  notices := .of_console rfl
  list := rfl
  counter := rfl
  stop := rfl
  port _ := .refl _
  configured _ := rfl
  params _ := rfl
  counts _ := id
  leader _ := .inl rfl
  done := hd
  cueing := hc
  rests _ := ⟨hp, fun _ => id, fun _ => id⟩

theorem updateEffects (s : State) (f : EffectsGenerator → EffectsGenerator) : BlockStep s (s.updateEffects f) where
  frame := rfl
  link := rfl
  notices := .of_console rfl
  list := rfl
  counter := rfl
  stop := rfl
  port _ := .refl _
  configured _ := rfl
  params _ := rfl
  counts _ := id
  leader _ := .inl rfl
  done := id
  cueing := id
  rests _ := ⟨id, fun _ => id, fun _ => id⟩

/-- The lines changed, each line at rest left at rest. -/
theorem updateLines {s : State} {f : CueUnit → CueUnit} (hs : (f s.cues).stop = s.cues.stop)
    (hl : ∀ g, (s.cueLine g).atRest → ((f s.cues).lines.get g).atRest) : BlockStep s (s.updateCues f) where
  frame := rfl
  link := rfl
  notices := .of_console rfl
  list := rfl
  counter := rfl
  stop := hs
  port _ := .refl _
  configured _ := rfl
  params _ := rfl
  counts _ := id
  leader _ := .inl rfl
  done := id
  cueing := id
  rests _ := ⟨id, fun _ => id, hl⟩

/-- The timeline clock changed. -/
theorem clock (s : State) (c : Option TimelineClock) : BlockStep s (s.updateTimeline (fun t => { t with clock := c })) where
  frame := rfl
  link := rfl
  notices := .of_console rfl
  list := rfl
  counter := rfl
  stop := rfl
  port _ := .refl _
  configured _ := rfl
  params _ := rfl
  counts _ := id
  leader _ := .inl rfl
  done := id
  cueing := id
  rests _ := ⟨id, fun _ => id, fun _ => id⟩

end BlockStep

/-! ### Holds (R134) -/

theorem changeEventState_step (s : State) (h : Nat) {f : Event → Event}
    (hf : ∀ e, (f e).handle = e.handle ∧ (f e).insertion = e.insertion ∧ (f e).record = e.record) :
    BlockStep s (changeEventState s h f) := by
  have updated : BlockStep s (updateEvent s h f) :=
    { frame := rfl, link := rfl, notices := .of_console rfl, list := updateEvent_listOf s h f hf, counter := rfl,
      stop := rfl, port := fun _ => .refl _, configured := fun _ => rfl, params := fun _ => rfl, counts := fun _ => id,
      leader := fun _ => .inl rfl, done := id, cueing := id, rests := fun _ => ⟨id, fun _ => id, fun _ => id⟩ }
  unfold changeEventState
  split
  · exact updated.trans (.raiseNotice _ _)
  · exact .refl s

theorem discardCues_step (s : State) : BlockStep s (discardCues s) := by
  refine .updateLines rfl (fun g hg => ?_)
  obtain ⟨a, c, -⟩ := hg
  rw [Bank.get_map]
  exact ⟨a, c, rfl, rfl, rfl⟩

theorem quietLines_step (s : State) : BlockStep s (quietLines s) := by
  refine .updateLines rfl (fun g hg => ?_)
  obtain ⟨-, -, rest⟩ := hg
  rw [Bank.get_map]
  exact ⟨rfl, rfl, rest⟩

theorem enterPhase_frame (s : State) (p : Phase) : BlockFrame s (enterPhase s p) := by
  unfold enterPhase
  refine BlockFrame.trans ?_ (BlockStep.raiseNotice _ _).toBlockFrame
  exact { BlockFrame.refl s with frame := rfl, link := rfl, notices := .of_console rfl }

/-- A phase change in an active phase. -/
theorem enterPhase_step {s : State} (h : s.run.phase.active = true) (p : Phase) : BlockStep s (enterPhase s p) := by
  refine ⟨enterPhase_frame s p, fun _ => ⟨fun hi => ?_, fun _ => id, fun _ => id⟩⟩
  rw [h] at hi
  exact absurd hi (by decide)

theorem becomeHeld_step (s : State) (cause : HoldCause) (m : Option MachineId) (phase : Option Phase) :
    BlockStep s (becomeHeld s cause m phase) := by
  unfold becomeHeld
  exact BlockStep.trans (.updateRun id id fun _ => rfl) (.raiseNotice _ _)

/-! An EDIT OFF placed ahead: at most one request is added, and what is withdrawn is never the request on the line. -/

theorem dropNewest_spec {q : List QueuedRequest} {r : List QueuedRequest × QueuedRequest} (h : dropNewest q = some r) :
    r.1.length + 1 = q.length ∧ motions r.1 ≤ motions q := by
  induction q generalizing r with
  | nil => simp [dropNewest] at h
  | cons x xs ih =>
    unfold dropNewest at h
    split at h
    · rename_i k hk
      injection h with h
      subst h
      obtain ⟨hl, hm⟩ := ih hk
      simp only [List.length_cons, motions_cons]
      omega
    · split at h
      · simp at h
      · injection h with h
        subst h
        exact ⟨rfl, by rw [motions_cons]; exact Nat.le_add_left _ _⟩

theorem Port.placedAhead_bounds (p : Port) :
    (p.lineHead ++ p.behindLine).length ≤ p.queue.length ∧ motions (p.lineHead ++ p.behindLine) ≤ motions p.queue := by
  have split_queue : p.lineHead ++ (if p.headOnLine then p.queue.drop 1 else p.queue) = p.queue := by
    unfold Port.lineHead
    split
    · exact List.take_append_drop 1 p.queue
    · rfl
  have hl := congrArg List.length split_queue
  have hm := congrArg motions split_queue
  have fl := List.length_filter_le (fun x : QueuedRequest => !x.request.isEditOn) (if p.headOnLine then p.queue.drop 1 else p.queue)
  have fm := motions_filter_le (fun x : QueuedRequest => !x.request.isEditOn) (if p.headOnLine then p.queue.drop 1 else p.queue)
  simp only [motions_append, List.length_append, Port.behindLine] at *
  omega

theorem Port.placeAhead_step {p : Port} {q : QueuedRequest} {r : Port × Option QueuedRequest}
    (hq : q.request.isMotion = false) (h : p.placeAhead q = .ok r) : PortStep p r.1 := by
  have bounds := p.placedAhead_bounds
  have aq : motions [q] = 0 := by simp [motions_cons, hq]
  have ahead (rest : List QueuedRequest) (hn : (p.lineHead ++ rest).length < Config.portQueueCapacity)
      (hm : motions (p.lineHead ++ rest) ≤ motions p.queue) : PortStep p { p with queue := p.lineHead ++ q :: rest } := by
    refine ⟨fun hp => ⟨?_, ?_⟩, fun _ _ => by simp, id⟩
    · simp only [List.length_append, List.length_cons] at *; omega
    · have := hp.2
      simp only [motions_append, motions_cons, motions_nil] at *; omega
  unfold Port.placeAhead at h
  split at h
  · simp at h
  · split at h
    · rename_i hn
      injection h with h
      subst h
      exact ahead _ hn bounds.2
    · split at h
      · rename_i rest lost hd
        injection h with h
        subst h
        obtain ⟨hl, hm⟩ := dropNewest_spec hd
        refine ⟨fun hp => ?_, fun _ _ => by simp, id⟩
        have := hp.1
        have := hp.2
        simp only [motions_append, List.length_append] at *
        refine ⟨by simp only [List.length_append, List.length_cons] at *; omega, ?_⟩
        simp only [motions_append, motions_cons, motions_nil] at *; omega
      · simp at h

theorem holdEditOff_step (s : State) : BlockStep s (holdEditOff s) := by
  have cleared : BlockStep s (s.updateRun (fun r => { r with editSet := TrackSet.none })) := .updateRun id id id
  unfold holdEditOff
  dsimp only
  split
  · exact .refl s
  split
  · exact cleared
  split
  · exact cleared
  · rename_i m _ _ p lost hp
    have placed := cleared.trans (.of_machines (MachineStep.setPort (m := m) (p := p)
      (Port.placeAhead_step (r := (p, lost)) rfl hp)))
    split
    · split
      · exact placed.trans (.of_machines (failLocate_step _ m _))
      · exact placed
    · exact placed

theorem stopClock_step (s : State) : BlockStep s (stopClock s) := .clock s none

theorem restoreEvent_step (s : State) : BlockStep s (restoreEvent s) := by
  unfold restoreEvent
  split
  · refine changeEventState_step s _ (fun e => ?_)
    split
    · exact e.leftIncomplete_key
    · exact e.restored_key _
  · exact .refl s

theorem holdRun_step (s : State) (cause : HoldCause) (m : Option MachineId) : BlockStep s (holdRun s cause m) := by
  unfold holdRun
  split
  · refine (holdEditOff_step s).trans (.trans (.of_machines (releaseAll_step _)) ?_)
    refine (stopClock_step _).trans ((discardCues_step _).trans ((restoreEvent_step _).trans ?_))
    exact .trans (.updateRun id id id) (becomeHeld_step _ _ _ _)
  · exact .refl s

/-! ### Reports -/

theorem deferFault_step (s : State) (cause : HoldCause) (m : MachineId) : BlockStep s (deferFault s cause m) :=
  .updateRun id id id

theorem takeReport_step (s : State) (r : RunReport) : BlockStep s (takeReport s r) := by
  unfold takeReport
  split
  · exact .refl s
  · exact holdRun_step s _ _
  · exact deferFault_step s _ _

theorem BlockStep.foldl {α : Type} {f : State → α → State} (hf : ∀ s a, BlockStep s (f s a)) (l : List α) (s : State) :
    BlockStep s (l.foldl f s) := by
  induction l generalizing s with
  | nil => exact .refl s
  | cons a as ih => exact (hf s a).trans (ih _)

theorem deliver_step (x : State × List RunReport) : BlockStep x.1 (deliver x) := .foldl takeReport_step _ _

/-- An operation on machines whose reports are then delivered. -/
theorem MachineStep.deliver {s : State} {x : State × List RunReport} (h : MachineStep s x.1) : BlockStep s (deliver x) :=
  (BlockStep.of_machines h).trans (deliver_step x)

/-! ### The take (R122 to R126) -/

theorem startLocate_frame {s t : State} {m : MachineId} {target : Nat} {owner : LocateOwner}
    (h : startLocate s m target owner = .ok t) : BlockFrame s t := by
  unfold startLocate at h
  split at h
  · rename_i u hu
    injection h with h
    subst h
    refine (BlockFrame.of_machines (placeMotion_step rfl hu)).trans (changeMachine_frame rfl rfl ?_ (.inl rfl))
    exact fun ⟨a, ⟨b, _⟩, ⟨c, _⟩, _⟩ =>
      ⟨a, ⟨b, Nat.zero_le _⟩, ⟨c, Nat.zero_le _⟩, by rintro _ ⟨⟩; exact Nat.zero_le _⟩
  · simp at h

/-- A run locate is begun only while STOP is released (R102). -/
theorem startRunLocate_frame {s t : State} {m : MachineId} {target : Nat} (h : startRunLocate s m target = .ok t) :
    BlockFrame s t ∧ s.stopAsserted = false := by
  unfold startRunLocate at h
  split at h
  · simp at h
  · rename_i hs
    exact ⟨startLocate_frame h, by simpa using hs⟩

theorem beginLocates_step (s : State) (r : Record) (t0 : Nat) (ms : List MachineId) : BlockStep s (beginLocates s r t0 ms) := by
  induction ms generalizing s with
  | nil => exact .refl s
  | cons m ms ih =>
    unfold beginLocates
    split
    · rename_i t ht
      obtain ⟨frame, released⟩ := startRunLocate_frame ht
      exact (frame.step_of_released released).trans (ih t)
    · exact holdRun_step s _ _

theorem loadCues_frame (s : State) (mode : RunMode) (e : Event) (times : RunTimes) : BlockFrame s (loadCues s mode e times) :=
  { BlockFrame.refl s with frame := rfl, link := rfl, notices := .of_console rfl }

/-- A validated event is taken only while STOP is released (R123). -/
theorem makeTake_step {s : State} (released : s.stopAsserted = false) (e : Event) (times : RunTimes) :
    BlockStep s (makeTake s e times) := by
  unfold makeTake
  dsimp only
  refine BlockStep.trans (BlockFrame.step_of_released ?_ released) (beginLocates_step _ _ _ _)
  refine BlockFrame.trans ?_ (enterPhase_frame _ _)
  refine BlockFrame.trans ?_ (BlockStep.updateRun id (fun _ => Nat.zero_le _) id).toBlockFrame
  refine BlockFrame.trans ?_ (loadCues_frame _ _ _ _)
  refine BlockFrame.trans ?_ (BlockStep.updateEffects _ _).toBlockFrame
  refine BlockFrame.trans ?_ (.of_machines (.foldl claimMachine_step _ _))
  refine BlockFrame.trans ?_ (BlockStep.updateRun id id id).toBlockFrame
  refine BlockFrame.trans ?_ (changeEventState_step _ _ fun x => x.withState_key _ _).toBlockFrame
  exact (BlockStep.updateRun id id id).toBlockFrame

theorem validateTake_released {s : State} {r : Record} {t : RunTimes} (h : validateTake s r t = none) :
    s.stopAsserted = false := by
  unfold validateTake at h
  split at h
  · simp at h
  split at h
  · simp at h
  split at h
  · simp at h
  · rename_i hs; simpa using hs

theorem endRun_step (s : State) : BlockStep s (endRun s) :=
  BlockStep.trans (.updateRun (f := fun r => { r.eventCleared with phase := .idle, current := none, holdCause := none })
    id id fun _ => rfl) (.raiseNotice _ _)

theorem takeEvent_step (s : State) (found : Option Event) : BlockStep s (takeEvent s found) := by
  unfold takeEvent
  split
  · exact endRun_step s
  · rename_i e
    dsimp only
    refine BlockStep.trans (.updateRun (f := fun r => { r with current := some e.handle, holdCause := none }) id id id) ?_
    split
    · exact .trans (.updateRun id id id) (becomeHeld_step _ _ _ _)
    · rename_i hv
      exact makeTake_step (validateTake_released hv) _ _

/-! ### The Run Controller at a field start (R126 to R133) -/

theorem chaseTimeline_frame (s : State) (m : MachineId) (terms : Option TargetTerms) : BlockFrame s (chaseTimeline s m terms) := by
  unfold chaseTimeline
  refine BlockFrame.trans (BlockFrame.setMachine (m := m)
    (r := { s.machine m with leader := .timeline, terms := terms }) rfl rfl id (.inr (.inr rfl))) ?_
  refine BlockFrame.trans (.of_machines (tryMotion_step _ m (r := .play) rfl 256)) ?_
  exact changeMachine_frame rfl rfl (fun k => countsCleared_fits k _) (.inl rfl)

theorem BlockFrame.foldl {α : Type} {f : State → α → State} (hf : ∀ s a, BlockFrame s (f s a)) (l : List α) (s : State) :
    BlockFrame s (l.foldl f s) := by
  induction l generalizing s with
  | nil => exact .refl s
  | cons a as ih => exact (hf s a).trans (ih _)

theorem chaseTimeline_others (s : State) (m : MachineId) (terms : Option TargetTerms) :
    OthersKept s (chaseTimeline s m terms) m := by
  intro n hn
  unfold chaseTimeline
  rw [changeMachine_port, changeMachine_machine_other _ _ hn]
  obtain ⟨hp, hm⟩ := tryMotion_others (updateMachine s m (fun x => { x with leader := .timeline, terms := terms })) m .play 256 n hn
  exact ⟨hp, hm.trans (State.setMachine_machine_other s _ hn)⟩

/-- A fold over machines whose steps each leave the other machines alone leaves alone those it does not name. -/
theorem foldl_others {f : State → MachineId → State} (hf : ∀ s m, OthersKept s (f s m) m) {ms : List MachineId} (s : State)
    {n : MachineId} (hn : n ∉ ms) : (ms.foldl f s).port n = s.port n ∧ (ms.foldl f s).machine n = s.machine n := by
  induction ms generalizing s with
  | nil => exact ⟨rfl, rfl⟩
  | cons m ms ih =>
    simp only [List.mem_cons, not_or] at hn
    obtain ⟨hp, hm⟩ := ih (f s m) hn.2
    obtain ⟨kp, km⟩ := hf s m n hn.1
    exact ⟨hp.trans kp, hm.trans km⟩

/-- The roll gives a leader to PARKED machines alone, so a machine at rest stays at rest. -/
theorem makeRoll_step {s : State} (due : rollDue s = true) : BlockStep s (makeRoll s) := by
  simp only [rollDue, Bool.and_eq_true, beq_iff_eq] at due
  obtain ⟨⟨cueing, parked⟩, -⟩ := due
  unfold makeRoll
  split
  · rename_i t e _ _
    have only := MachinesOnly.foldl (fun x m => chaseTimeline_machinesOnly x m (machineTerms s e.record m)) (runMachines s)
      (startClock s t.t0)
    refine BlockStep.trans (.clock s (some ⟨fieldCount s, t.t0⟩)) (BlockStep.trans ⟨?frame, ?rests⟩ (enterPhase_step ?active _))
    case frame => exact .foldl (fun x m => chaseTimeline_frame x m _) _ _
    case rests =>
      refine fun _ => ⟨by rw [only.run]; exact id, fun n hr => ?_, fun g => by unfold State.cueLine; rw [only.cues]; exact id⟩
      by_cases hn : n ∈ runMachines s
      · simp only [allParked, List.all_eq_true, beq_iff_eq] at parked
        have free := hr.1
        rw [State.updateTimeline_machine, parked n hn] at free
        exact absurd free (by decide)
      · rw [(foldl_others (fun x m => chaseTimeline_others x m _) _ hn).2]
        exact hr
    case active =>
      rw [only.run, startClock, State.updateTimeline_run, cueing]
      rfl
  · exact .refl s

theorem raiseCueing_step (s : State) : BlockStep s (raiseCueing s) := by
  refine .updateRun ?done ?cueing ?phase
  case cueing => exact fun _ => Nat.min_le_left _ _
  all_goals exact id

theorem cueingField_step (s : State) : BlockStep s (cueingField s) := by
  unfold cueingField
  refine (raiseCueing_step s).trans ?_
  split
  · rename_i due
    exact makeRoll_step due
  split
  · exact holdRun_step _ _ _
  · exact .refl _

theorem syncField_step (s : State) : BlockStep s (syncField s) := by
  unfold syncField
  split
  · split
    · exact holdRun_step s _ _
    · exact .updateRun id id id
  · exact .refl s

theorem placeEditRequest_step {s t : State} {r : DeckRequest} (hr : r.isMotion = false)
    (h : placeEditRequest s r = .ok t) : MachineStep s t := by
  unfold placeEditRequest at h
  split at h
  · simp at h
  split at h
  · rename_i p hp
    injection h with h
    subst h
    exact .setPort ⟨fun k => Port.placeEdit_fits hr k hp, fun _ => Port.placeEdit_lineHeld hp,
      fun k => by rw [(Port.placeEdit_spec hp).2.2]; exact k⟩
  · simp at h

theorem placeEditOn_step (s : State) (tracks : TrackSet) : BlockStep s (placeEditOn s tracks) := by
  unfold placeEditOn
  split
  · rename_i t ht
    exact (BlockStep.of_machines (placeEditRequest_step rfl ht)).trans (.updateRun id id id)
  · exact holdRun_step s _ _

theorem editOnAt_active {s : State} {x : EditOn} (h : editOnAt s = some x) : s.run.phase.active = true := by
  unfold editOnAt at h
  split at h
  · split at h
    · rename_i hp
      simp only [Bool.or_eq_true, beq_iff_eq] at hp
      rcases hp with hp | hp <;> rw [hp] <;> rfl
    · simp at h
  all_goals simp at h

theorem enterEditing_step {s : State} (h : s.run.phase.active = true) : BlockStep s (enterEditing s) := by
  unfold enterEditing
  split
  · exact enterPhase_step h _
  · exact .refl s

theorem editOnField_step (s : State) : BlockStep s (editOnField s) := by
  unfold editOnField
  split
  · rename_i x hx
    have editing := enterEditing_step (editOnAt_active hx)
    split
    · exact editing.trans (placeEditOn_step _ _)
    · exact editing
    · exact editing
  · exact .refl s

theorem editOffField_step (s : State) : BlockStep s (editOffField s) := by
  unfold editOffField
  split
  · rename_i due
    have active : s.run.phase.active = true := by
      simp only [editOffDue, Bool.and_eq_true, beq_iff_eq] at due
      rw [due.1]; rfl
    split
    · split
      · rename_i t ht
        have placed := placeEditRequest_step rfl ht
        refine BlockStep.trans (.of_machines placed) (.trans (.updateRun id id id) (enterPhase_step ?_ _))
        rw [State.updateRun_run, placed.only.run]
        exact active
      · exact holdRun_step s _ _
    · exact enterPhase_step active _
    · exact enterPhase_step active _
  · exact .refl s

theorem finishEvent_step (s : State) (h : Nat) : BlockStep s (finishEvent s h) := by
  unfold finishEvent
  split
  · exact changeEventState_step s h fun e => e.completed_key
  · exact changeEventState_step s h fun e => e.restored_key _
  · exact changeEventState_step s h fun e => e.restored_key _

theorem advanceCursor_step (s : State) (handle : Nat) : BlockStep s (advanceCursor s handle) := by
  unfold advanceCursor
  split
  · split
    · exact .updateRun id id id
    · exact .refl s
  · exact .refl s

theorem advanceInRange_step (s : State) (handle : Nat) : BlockStep s (advanceInRange s handle) := by
  unfold advanceInRange
  split
  · exact advanceCursor_step s handle
  · exact .refl s
  · exact .refl s

theorem completeEvent_step (s : State) (h : Nat) : BlockStep s (completeEvent s h) := by
  unfold completeEvent
  dsimp only
  refine BlockStep.trans ?_ ((advanceInRange_step _ h).trans (.updateRun id id id))
  refine BlockStep.trans ?_ (.updateRun (fun _ => Nat.min_le_left _ _) id id)
  exact BlockStep.trans (.of_machines (releaseAll_step s)) ((stopClock_step _).trans (finishEvent_step _ h))

theorem afterPostroll_step (s : State) : BlockStep s (afterPostroll s) := by
  unfold afterPostroll
  split
  · exact .trans (.updateRun id id id) (becomeHeld_step _ _ _ _)
  · exact takeEvent_step s _

theorem postrollField_step (s : State) : BlockStep s (postrollField s) := by
  unfold postrollField
  split
  · split
    · exact (completeEvent_step s _).trans (afterPostroll_step _)
    · exact .refl s
  · exact .refl s

theorem runField_step (s : State) : BlockStep s (runField s) := by
  unfold runField
  split
  · exact cueingField_step s
  · exact (((syncField_step s).trans (editOnField_step _)).trans (editOffField_step _)).trans (postrollField_step _)

/-! ### Deck replies and faults -/

theorem takeStatus_step (s : State) (m : MachineId) (p : StatusPayload) : BlockStep s (takeStatus s m p) := by
  unfold takeStatus
  exact MachineStep.deliver (((statusApplied_step s m p).trans (statusServo_step _ m _)).trans (statusLink_step _ m))

theorem completed_step (s : State) (m : MachineId) : MachineStep s (s.setPort m (s.port m).completed) :=
  .setPort (Port.completed_step _)

theorem takeNakRefused_step (s : State) (m : MachineId) : BlockStep s (takeNakRefused s m) := by
  have done := completed_step s m
  unfold takeNakRefused
  dsimp only
  split
  · exact MachineStep.deliver (done.trans (refuseOnLine_step _ m))
  · exact MachineStep.deliver (done.trans (changeLink_step _ m _))
  · exact .of_machines done
  · exact .of_machines done

theorem goLocal_step (s : State) (m : MachineId) : BlockStep s (goLocal s m) := by
  unfold goLocal
  refine MachineStep.deliver ?_
  dsimp only
  exact (flushLost_step s m).trans (changeLink_step _ m _)

theorem takeNakLocal_step (s : State) (m : MachineId) : BlockStep s (takeNakLocal s m) := by
  have done := completed_step s m
  unfold takeNakLocal
  dsimp only
  split
  · exact (BlockStep.of_machines done).trans (goLocal_step _ m)
  · exact MachineStep.deliver (done.trans (changeLink_step _ m _))
  · exact .of_machines done
  · exact .of_machines done

theorem goOffline_step (s : State) (m : MachineId) : BlockStep s (goOffline s m) := by
  unfold goOffline
  refine MachineStep.deliver ?_
  dsimp only
  refine (flushLost_step s m).trans (MachineStep.trans (.setPort ?_) (changeLink_step _ m _))
  exact ⟨id, id, id⟩

theorem compareErrors_step (s : State) (m : MachineId) : BlockStep s (compareErrors s m) := by
  unfold compareErrors
  split
  · exact goOffline_step s m
  · exact .refl s

theorem Port.afterFailure_step (p : Port) : PortStep p p.afterFailure := by
  unfold Port.afterFailure
  split
  · split
    · exact p.removeOnLine_step
    · exact p.offLine_step
  · exact p.offLine_step

theorem failExchange_step (s : State) (m : MachineId) : BlockStep s (failExchange s m) := by
  unfold failExchange
  split
  · refine BlockStep.trans (MachineStep.deliver (MachineStep.setPort ?_)) (compareErrors_step _ m)
    refine ((s.port m).afterFailure_step.trans (Port.withProgress_step _ .failed)).trans ?_
    exact ⟨id, id, id⟩
  · exact .of_machines (.setPort (Port.withProgress_step _ _))

theorem countUnsolicited_step (s : State) (m : MachineId) : BlockStep s (countUnsolicited s m) := by
  unfold countUnsolicited
  refine BlockStep.trans (.of_machines (.setPort ?_)) (compareErrors_step _ m)
  exact (Port.withProgress_step _ _).trans ⟨id, id, id⟩

/-! ### Each block at a field start -/

theorem Port.openExchange_step (p : Port) (mode : LabelMode) (n : Nat) : PortStep p (p.openExchange mode n) := by
  unfold Port.openExchange
  split
  · rename_i q rest hl hq
    exact ⟨id, fun _ _ => by simp [hq], id⟩
  · exact ⟨id, fun _ => Port.lineHeld_of_offLine rfl, id⟩

theorem openField_step (s : State) (m : MachineId) : MachineStep s (openField s m) := by
  unfold openField
  split
  · exact .setPort (Port.openExchange_step _ _ _)
  · exact .setPort ⟨id, fun _ => Port.lineHeld_of_offLine rfl, id⟩

theorem recoveryField_step (s : State) (m : MachineId) : MachineStep s (recoveryField s m) := by
  unfold recoveryField
  split
  · exact .setPort ⟨id, fun _ => Port.lineHeld_of_offLine rfl, id⟩
  · exact .setPort ⟨id, fun _ => Port.lineHeld_of_offLine rfl, id⟩

theorem portField_step (s : State) (m : MachineId) : BlockStep s (portField s m) := by
  have opened (t : State) := BlockStep.of_machines (openField_step t m)
  unfold portField
  split
  · exact .refl s
  · exact .of_machines (recoveryField_step s m)
  all_goals
    split
    · exact (failExchange_step s m).trans (opened _)
    · exact opened s

theorem machineField_step (s : State) (m : MachineId) : BlockStep s (machineField s m) := by
  unfold machineField
  split
  · exact .refl s
  split
  · exact .of_machines (updateMachine_step (.of_same rfl rfl (.inr (Nat.zero_le _)) rfl rfl rfl rfl rfl))
  have stale : MachineStep s (updateMachine s m MachineRec.onStale) :=
    updateMachine_step (.of_same rfl rfl (.inr (Nat.min_le_left _ _)) rfl rfl rfl rfl rfl)
  split
  · refine .of_machines (MachineStep.trans (updateMachine_step ?_) (ctlEvaluation_step _ m _))
    exact .of_same rfl rfl (.inr (Nat.zero_le _)) rfl rfl rfl rfl rfl
  split
  · rename_i unlocks
    refine MachineStep.deliver (stale.trans (becomeUnlocked_step ?_))
    simp only [unlocksStale, Bool.and_eq_true, beq_iff_eq] at unlocks
    simp [updateMachine, MachineRec.onStale, unlocks.1.2]
  · exact .of_machines stale

theorem cueLinesField_step (s : State) : BlockStep s (cueLinesField s) := by
  cases hs : s.stopAsserted with
  | true => rw [cueLinesField_asserted hs]; exact .refl s
  | false =>
    refine BlockFrame.step_of_released ?_ hs
    rw [cueLinesField_frame]
    exact { BlockFrame.refl s with frame := rfl, link := rfl, notices := .of_console rfl }

theorem effectsField_step (s : State) : BlockStep s (effectsField s) := by
  unfold effectsField
  split <;> exact .updateEffects s _

theorem actOnField_step (s : State) (r : Receiver) : BlockStep s (actOnField s r) := by
  cases r with
  | port m => exact portField_step s m
  | machine m => exact machineField_step s m
  | run => exact runField_step s
  | cue => exact cueLinesField_step s
  | effects => exact effectsField_step s

end Sys2Proof.Machine
end

section
/-! SUPPORT. The four invariants of a step as one relation: what a block's work, a field start and an answered request each
keep. -/

namespace Sys2Proof.Machine

/-- Handles, insertion numbers, records, their order and the counter are as they were. -/
def SameList (s t : State) : Prop := listOf t = listOf s ∧ t.store.counter = s.store.counter

theorem SameList.refl (s : State) : SameList s s := ⟨rfl, rfl⟩

theorem SameList.trans {s t u : State} (h : SameList s t) (k : SameList t u) : SameList s u :=
  ⟨k.1.trans h.1, k.2.trans h.2⟩

/-- Each of the four invariants is kept. -/
structure Keeps (s t : State) : Prop where
  safe : Safe s → Safe t
  list : ListSound s → ListSound t
  rests : StopRests s → StopRests t
  leaders : LeadersEnd s → LeadersEnd t

theorem Keeps.refl (s : State) : Keeps s s := ⟨id, id, id, id⟩

theorem Keeps.trans {s t u : State} (h : Keeps s t) (k : Keeps t u) : Keeps s u :=
  ⟨k.safe ∘ h.safe, k.list ∘ h.list, k.rests ∘ h.rests, k.leaders ∘ h.leaders⟩

/-! ### The list in an unchanged domain -/

/-- The domain in which offsets are measured is the same: the day and the origin. -/
def SameDomain (s t : State) : Prop := dayRec t = dayRec s ∧ t.timeline.origin = s.timeline.origin

section domain
variable {s t : State} (h : SameDomain s t)
include h

theorem SameDomain.offsetOf (p : Nat) : offsetOf t p = offsetOf s p := by simp only [Machine.offsetOf, h.1, h.2]

theorem SameDomain.startOffset (r : Record) : startOffset t r = startOffset s r := by
  simp only [Machine.startOffset, h.offsetOf, h.1]

theorem SameDomain.endOffset (r : Record) : endOffset t r = endOffset s r := by
  simp only [Machine.endOffset, h.startOffset]

theorem SameDomain.spanOn (r : Record) (k : Track) : spanOn t r k = spanOn s r k := by
  simp only [Machine.spanOn, h.offsetOf, h.endOffset, h.1]

theorem SameDomain.overlapOn (a b : Record) (k : Track) : overlapOn t a b k = overlapOn s a b k := by
  simp only [Machine.overlapOn, h.spanOn]

theorem SameDomain.keyBefore (a b : Event) : keyBefore t a b = keyBefore s a b := by
  simp only [Machine.keyBefore, h.startOffset]

end domain

theorem sameDomain_of_params {s t : State} (hr : t.recorder = s.recorder)
    (hp : ∀ m, (t.machine m).params = (s.machine m).params) (hs : t.timeline.standard = s.timeline.standard)
    (ho : t.timeline.origin = s.timeline.origin) : SameDomain s t := by
  refine ⟨?_, ho⟩
  unfold dayRec timelineMode
  rw [hr, hs]
  split
  · exact congrArg (fun x => x.mode.day) (hp _)
  · rfl

/-- A relation between events that looks at handle, insertion number and record alone holds of lists that show the same. -/
theorem pairwise_of_listOf {s t : State} (h : listOf t = listOf s) (R : Nat × Nat × Record → Nat × Nat × Record → Prop)
    (hs : s.store.events.Pairwise (fun a b => R (a.handle, a.insertion, a.record) (b.handle, b.insertion, b.record))) :
    t.store.events.Pairwise (fun a b => R (a.handle, a.insertion, a.record) (b.handle, b.insertion, b.record)) := by
  have shown : (listOf s).Pairwise R := List.pairwise_map.mpr hs
  rw [← h] at shown
  exact List.pairwise_map.mp shown

theorem forall_of_listOf {s t : State} (h : listOf t = listOf s) (P : Nat × Nat × Record → Prop)
    (hs : ∀ e ∈ s.store.events, P (e.handle, e.insertion, e.record)) :
    ∀ e ∈ t.store.events, P (e.handle, e.insertion, e.record) := by
  intro e he
  have mem : (e.handle, e.insertion, e.record) ∈ listOf s :=
    h ▸ List.mem_map.mpr ⟨e, he, rfl⟩
  obtain ⟨k, hk, heq⟩ := List.mem_map.mp mem
  exact heq ▸ hs k hk

/-- The list is sound where it shows the same events in the same domain. -/
theorem ListSound.of_same {s t : State} (hr : RecorderConfigured s → RecorderConfigured t) (hd : SameDomain s t)
    (hl : SameList s t) (h : ListSound s) : ListSound t := by
  obtain ⟨recorder, ⟨below, handles⟩, ⟨order, insertions, counter⟩, tracks, records⟩ := h
  refine ⟨hr recorder, ⟨?_, ?_⟩, ⟨?_, ?_, by rw [hl.2]; exact counter⟩, ?_, ?_⟩
  · exact forall_of_listOf hl.1 (fun k => k.1 < Config.slotCount) below
  · exact pairwise_of_listOf hl.1 (fun a b => a.1 ≠ b.1) handles
  · simp only [hd.keyBefore]
    refine pairwise_of_listOf hl.1 (fun a b =>
      keyBefore s ⟨a.1, a.2.1, .opened, ⟨false, false⟩, a.2.2⟩ ⟨b.1, b.2.1, .opened, ⟨false, false⟩, b.2.2⟩ = true
        ∧ a.2.1 ≠ b.2.1) order
  · rw [hl.2]
    exact forall_of_listOf hl.1 (fun k => k.2.1 < s.store.counter) insertions
  · unfold TracksExclusive
    simp only [hd.overlapOn]
    exact pairwise_of_listOf hl.1 (fun a b => ∀ k, overlapOn s a.2.2 b.2.2 k = false) tracks
  · unfold RecordsFit
    simp only [hd.endOffset, hd.1]
    exact forall_of_listOf hl.1
      (fun k => 1 ≤ k.2.2.duration ∧ k.2.2.splitOf < (k.2.2.duration : Int) ∧ endOffset s k.2.2 ≤ dayRec s) records

/-! ### Leaders -/

/-- Where no leader machine is given, every chain is as short as it was or shorter. -/
theorem chainEnds_of_fewer {s t : State}
    (h : ∀ m, (t.machine m).leader = (s.machine m).leader ∨ (t.machine m).following = false) :
    ∀ (n : Nat) (m : MachineId), chainEnds s n m = true → chainEnds t n m = true := by
  intro n
  induction n with
  | zero =>
    intro m hm
    rcases h m with hl | hl
    · simpa [chainEnds, MachineRec.following, hl] using hm
    · simp [chainEnds, hl]
  | succ n ih =>
    intro m hm
    unfold chainEnds at hm ⊢
    rcases h m with hl | hl
    · rw [hl]
      split at hm
      · exact ih _ hm
      · rfl
      · rfl
    · unfold MachineRec.following at hl
      split at hl <;> simp_all

theorem LeadersEnd.of_fewer {s t : State}
    (h : ∀ m, (t.machine m).leader = (s.machine m).leader ∨ (t.machine m).following = false) (k : LeadersEnd s) :
    LeadersEnd t := fun m => chainEnds_of_fewer h 8 m (k m)

/-! ### A block's work -/

/-- The ranges hold after an operation that keeps them field by field. -/
theorem Safe.of_frame {s t : State} (h : BlockFrame s t) : Safe s → Safe t := by
  rintro ⟨ports, ⟨inbound, replies, notices⟩, ⟨good, done, cueing, ctl, counts⟩, modes, waits⟩
  refine ⟨fun m => ⟨(h.port m).fits (ports m).1, (h.port m).held (ports m).2⟩, ⟨?_, ?_, h.notices.fits notices⟩,
    ⟨?_, h.done done, h.cueing cueing, fun m => (h.port m).ctl (ctl m), fun m => h.counts m (counts m)⟩, fun m => ?_, ?_⟩
  · rw [h.link]; exact inbound
  · rw [h.link]; exact replies
  · rw [h.goodCount]; exact good
  · rw [h.standard, h.params]; exact modes m
  · unfold WaitsOnce; rw [h.waiting]; exact waits

theorem BlockFrame.sameList {s t : State} (h : BlockFrame s t) : SameList s t := ⟨h.list, h.counter⟩

theorem ListSound.of_frame {s t : State} (h : BlockFrame s t) : ListSound s → ListSound t :=
  .of_same (fun r m hm => (h.configured m).trans (r m (h.recorder ▸ hm)))
    (sameDomain_of_params h.recorder h.params h.standard h.origin) h.sameList

theorem LeadersEnd.of_frame {s t : State} (h : BlockFrame s t) : LeadersEnd s → LeadersEnd t := by
  refine .of_fewer (fun m => ?_)
  rcases h.leader m with hl | hl | hl
  · exact .inl hl
  · exact .inr (by simp [MachineRec.following, hl])
  · exact .inr (by simp [MachineRec.following, hl])

theorem StopRests.of_step {s t : State} (h : BlockStep s t) (k : StopRests s) : StopRests t := by
  intro asserted
  have stopped : s.stopAsserted = true := h.stopAsserted ▸ asserted
  obtain ⟨idle, free, lines⟩ := k stopped
  obtain ⟨tidle, tfree, tlines⟩ := h.rests stopped
  exact ⟨tidle idle, fun m hm => tfree m (free m ((h.configured m).symm.trans hm)), fun g => tlines g (lines g)⟩

theorem BlockStep.keeps {s t : State} (h : BlockStep s t) : Keeps s t :=
  ⟨Safe.of_frame h.toBlockFrame, ListSound.of_frame h.toBlockFrame, StopRests.of_step h, LeadersEnd.of_frame h.toBlockFrame⟩

/-- A change of what no machine, port, list, cue line or run shows: the time, the waiting blocks, the console link. -/
theorem Keeps.of_outer {s t : State}
    (frame : t = { s with inReset := t.inReset, now := t.now, timeline := t.timeline, runParams := t.runParams,
                          effects := t.effects, console := t.console, waiting := t.waiting, pending := t.pending })
    (standard : t.timeline.standard = s.timeline.standard) (origin : t.timeline.origin = s.timeline.origin)
    (good : s.timeline.goodCount ≤ Config.goodPulses → t.timeline.goodCount ≤ Config.goodPulses)
    (console : ConsoleQueuesFit s → ConsoleQueuesFit t) (waits : WaitsOnce s → WaitsOnce t) : Keeps s t := by
  have machine (m : MachineId) : t.machine m = s.machine m := by rw [frame]; rfl
  have port (m : MachineId) : t.port m = s.port m := by rw [frame]; rfl
  have store : t.store = s.store := by rw [frame]
  have recorder : t.recorder = s.recorder := by rw [frame]
  have run : t.run = s.run := by rw [frame]
  have cues : t.cues = s.cues := by rw [frame]
  refine ⟨?_, ?_, ?_, ?_⟩
  · rintro ⟨ports, link, ⟨count, done, cueing, ctl, counts⟩, modes, once⟩
    unfold Safe PortQueuesFit CountsFit ModesAllowed
    simp only [port, machine, run, standard]
    exact ⟨ports, console link, ⟨good count, done, cueing, ctl, counts⟩, modes, waits once⟩
  · refine .of_same (fun h m hm => ?_) (sameDomain_of_params recorder (fun m => by rw [machine]) standard origin) ?_
    · rw [machine]; exact h m (recorder ▸ hm)
    · exact ⟨by rw [listOf, store]; rfl, by rw [store]⟩
  · intro h
    unfold StopRests State.stopAsserted State.cueLine
    simp only [machine, run, cues]
    exact h
  · exact .of_fewer fun m => .inl (by rw [machine])

/-! ### Field starts (R20) -/

theorem BlockStep.withWaiting {s t : State} (h : BlockStep s t) (w : List Receiver) :
    BlockStep { s with waiting := w } { t with waiting := w } where
  frame := by dsimp only; rw [h.frame]
  link := h.link
  notices := ⟨h.notices.fits, h.notices.noticed⟩
  list := h.list
  counter := h.counter
  stop := h.stop
  port := h.port
  configured := h.configured
  params := h.params
  counts := h.counts
  leader := h.leader
  done := h.done
  cueing := h.cueing
  rests := h.rests

/-- Taking a field start is a block's work, but for the waiting blocks. -/
structure FieldTaken (s t : State) : Prop where
  block : BlockStep { s with waiting := t.waiting } t
  waits : t.waiting.Sublist s.waiting

theorem FieldTaken.refl (s : State) : FieldTaken s s := ⟨.refl s, .refl _⟩

theorem FieldTaken.trans {s t u : State} (h : FieldTaken s t) (k : FieldTaken t u) : FieldTaken s u :=
  ⟨(h.block.withWaiting u.waiting).trans k.block, k.waits.trans h.waits⟩

theorem takeField_taken_step (s : State) (r : Receiver) : FieldTaken s (takeField s r) := by
  cases hw : s.waiting.contains r with
  | false => rw [takeField_taken hw]; exact .refl s
  | true =>
    rw [takeField_waiting hw]
    have block := actOnField_step { s with waiting := s.waiting.erase r } r
    have waiting := block.waiting
    exact ⟨by rw [waiting]; exact block, by rw [waiting]; exact List.erase_sublist⟩

theorem takeAll_step (s : State) (rs : List Receiver) : FieldTaken s (takeAll s rs) :=
  takeAll_keeps (P := FieldTaken s) (fun t r h => h.trans (takeField_taken_step t r)) rs (.refl s)

theorem settle_step (s : State) : FieldTaken s (settle s) := takeAll_step s _

theorem Keeps.waits {s : State} {w : List Receiver} (h : WaitsOnce s → w.Nodup) : Keeps s { s with waiting := w } :=
  .of_outer rfl rfl rfl id id h

theorem FieldTaken.keeps {s t : State} (h : FieldTaken s t) : Keeps s t :=
  (Keeps.waits fun k => k.sublist h.waits).trans h.block.keeps

theorem FieldTaken.sameList {s t : State} (h : FieldTaken s t) : SameList s t := h.block.sameList

/-- A field start made: the timeline's field and the waiting blocks are new, then blocks take it. -/
theorem newField_keeps (s : State) (f : FieldStart) :
    Keeps s { s.updateTimeline (fun x => { x with field := some f }) with waiting := allReceivers }
      ∧ SameList s { s.updateTimeline (fun x => { x with field := some f }) with waiting := allReceivers } :=
  ⟨.of_outer rfl rfl rfl id id fun _ => allReceivers_nodup, rfl, rfl⟩

theorem fieldStart_keeps (s : State) (parity : Parity) (takers : List Receiver) :
    Keeps s (fieldStart s parity takers) ∧ SameList s (fieldStart s parity takers) := by
  unfold fieldStart
  dsimp only
  have settled := settle_step s
  have made := newField_keeps (settle s) ⟨nextCount (settle s), parity⟩
  have taken := takeAll_step { (settle s).updateTimeline (fun x =>
    { x with field := some ⟨nextCount (settle s), parity⟩ }) with waiting := allReceivers } takers
  exact ⟨settled.keeps.trans (made.1.trans taken.keeps), settled.sameList.trans (made.2.trans taken.sameList)⟩

end Sys2Proof.Machine
end

section
/-! SUPPORT. Every command that is no request keeps the four invariants, and but for full reset the list. -/

namespace Sys2Proof.Machine

/-! ### The reset state -/

theorem Port.reset_fits : Port.reset.queueFits ∧ Port.reset.lineHeld ∧ Port.reset.ctlFits :=
  ⟨⟨Nat.zero_le _, Nat.zero_le _⟩, Port.lineHeld_of_offLine rfl, by decide, by decide, by decide⟩

theorem MachineRec.reset_fits : MachineRec.reset.countsFit :=
  ⟨by decide, by decide, by decide, fun l h => by simp [MachineRec.reset] at h⟩

@[simp] theorem State.reset_port (m : MachineId) : State.reset.port m = Port.reset := Bank.get_fill ..

@[simp] theorem State.reset_machine (m : MachineId) : State.reset.machine m = MachineRec.reset := Bank.get_fill ..

@[simp] theorem State.reset_cueLine (g : CueLineId) : State.reset.cueLine g = CueLine.reset := Bank.get_fill ..

theorem reset_safe : Safe State.reset := by
  refine ⟨fun m => ?_, ⟨by decide, by decide, by decide⟩, ⟨by decide, by decide, by decide, fun m => ?_, fun m => ?_⟩, fun m => ?_, List.nodup_nil⟩
  · rw [State.reset_port]; exact ⟨Port.reset_fits.1, Port.reset_fits.2.1⟩
  · rw [State.reset_port]; exact Port.reset_fits.2.2
  · rw [State.reset_machine]; exact MachineRec.reset_fits
  · rw [State.reset_machine]; rfl

/-- An empty list is sound in any domain. -/
theorem ListSound.of_empty {s : State} (hr : RecorderConfigured s) (he : s.store.events = [])
    (hc : s.store.counter < Config.wordLimit) : ListSound s := by
  refine ⟨hr, ⟨?_, ?_⟩, ⟨?_, ?_, hc⟩, ?_, ?_⟩
  · simp [he]
  · simp [he]
  · simp [he]
  · simp [he]
  · unfold TracksExclusive; simp [he]
  · unfold RecordsFit; simp [he]

theorem reset_listSound : ListSound State.reset := .of_empty (fun m h => by simp [State.reset] at h) rfl (by decide)

theorem reset_leadersEnd : LeadersEnd State.reset := by
  intro m
  unfold chainEnds
  rw [State.reset_machine]
  rfl

theorem reset_stopRests : StopRests State.reset := fun h => by simp [State.reset, State.stopAsserted] at h

theorem fullReset_keeps (s : State) : Keeps s { State.reset with inReset := true, pending := s.pending } :=
  ⟨fun _ => reset_safe, fun _ => reset_listSound, fun _ => reset_stopRests, fun _ => reset_leadersEnd⟩

/-! ### Folds that establish a fact on the way -/

/-- What the step for one element establishes, and every step keeps, holds at the end of a fold that meets the element. -/
theorem foldl_establishes {σ α : Type} {f : σ → α → σ} {A Q : σ → Prop} {a : α} (keepA : ∀ s b, A s → A (f s b))
    (keepQ : ∀ s b, A s → Q s → Q (f s b)) (make : ∀ s, A s → Q (f s a)) {l : List α} (ha : a ∈ l) {s : σ} (hs : A s) :
    Q (l.foldl f s) := by
  have kept (l : List α) : ∀ s, A s → Q s → Q (l.foldl f s) := by
    induction l with
    | nil => exact fun _ _ h => h
    | cons b bs ih => exact fun s hA hQ => ih _ (keepA s b hA) (keepQ s b hA hQ)
  induction l generalizing s with
  | nil => simp at ha
  | cons b bs ih =>
    rcases List.mem_cons.mp ha with rfl | hm
    · exact kept bs _ (keepA s a hs) (make s hs)
    · exact ih hm (keepA s b hs)

/-! ### The STOP input (R175, R176) -/

/-- An asserted STOP input leaves the machine FREE and without leader (R116). -/
theorem reportLocateFailure_machine (s : State) (m n : MachineId) (l : Locate) (target : Label) (reason : LocateReason) :
    (reportLocateFailure s m l target reason).1.machine n = s.machine n := by
  unfold reportLocateFailure; split <;> rfl

theorem allStopMachine_rests (s : State) (m : MachineId) : ((allStopMachine s m).1.machine m).rests := by
  unfold allStopMachine
  split
  · rw [reportLocateFailure_machine, changeMachine_machine]
    exact ⟨rfl, rfl⟩
  · dsimp only
    rw [changeMachine_machine]
    exact ⟨rfl, rfl⟩

theorem allStop_rests (s : State) (m : MachineId) (hm : (s.machine m).configured = true) :
    ((allStop s).1.machine m).rests := by
  unfold allStop
  refine foldl_establishes (A := fun x : State × List RunReport => (x.1.machine m).configured = true)
    (Q := fun x : State × List RunReport => (x.1.machine m).rests) (a := m)
    ?_ ?_ ?_ (Unit8.mem_all m) hm
  · intro x n hx
    split
    · exact ((allStopMachine_step x.1 n).record m).configured.trans hx
    · exact hx
  · intro x n _ hr
    split
    · exact ((allStopMachine_step x.1 n).record m).rests hr
    · exact hr
  · intro x hx
    rw [if_pos hx]
    exact allStopMachine_rests x.1 m

theorem stopReported_step (s : State) (r : StopReport) : BlockStep s (stopReported s r) := by
  cases r with
  | machineController => exact (allStop_step s).deliver
  | runController => exact holdRun_step s _ _
  | effectsGenerator => exact BlockStep.updateEffects s (fun g => { g with freeze := true })

theorem mem_stopOrder (order : List StopReport) (r : StopReport) : r ∈ stopOrder order := by
  unfold stopOrder
  by_cases h : r ∈ order
  · exact List.mem_append_left _ h
  · refine List.mem_append_right _ (List.mem_filter.mpr ⟨?_, by simpa using h⟩)
    cases r <;> simp

/-- The state in which the reports of an assertion reach the blocks has STOP asserted and every line at rest. -/
theorem assertStop_lines (s : State) (g : CueLineId) : ((assertStop s).cueLine g).atRest := by
  have line : (assertStop s).cueLine g = (s.cueLine g).discarded.quiet := by
    show ((discardCues s).cues.lines.map CueLine.quiet).get g = _
    rw [Bank.get_map]
    exact congrArg _ (discardCues_cueLine s g)
  rw [line]
  exact ⟨rfl, rfl, rfl, rfl, rfl⟩

theorem assertStop_asserted (s : State) : (assertStop s).stopAsserted = true := rfl

/-- The recognised STOP state says nothing of ports, counts, list and leaders. -/
theorem recogniseStop_keeps (s : State) (x : StopState) :
    (Safe s → Safe (recogniseStop s x)) ∧ (ListSound s → ListSound (recogniseStop s x))
      ∧ (LeadersEnd s → LeadersEnd (recogniseStop s x)) ∧ SameList s (recogniseStop s x) := by
  have raised := BlockStep.raiseNotice (s.updateCues (fun u => { u with stop := x })) (.allStop x)
  refine ⟨fun h => raised.keeps.safe ?_, fun h => raised.keeps.list ?_, fun h => raised.keeps.leaders ?_, rfl, rfl⟩
  · exact h
  · exact h
  · exact fun m => chainEnds_of_fewer (fun _ => .inl rfl) 8 m (h m)

theorem assertStop_keeps (s : State) :
    (Safe s → Safe (assertStop s)) ∧ (ListSound s → ListSound (assertStop s)) ∧ (LeadersEnd s → LeadersEnd (assertStop s))
      ∧ SameList s (assertStop s) := by
  have quiet := (discardCues_step s).trans (quietLines_step _)
  obtain ⟨safe, list, leaders, same⟩ := recogniseStop_keeps (quietLines (discardCues s)) .asserted
  exact ⟨safe ∘ quiet.keeps.safe, list ∘ quiet.keeps.list, leaders ∘ quiet.keeps.leaders, quiet.sameList.trans same⟩

theorem withoutCue_keeps (s : State) : Keeps s (withoutCue s) := .waits fun h => h.sublist List.erase_sublist

theorem stopReports_rest (order : List StopReport) {s : State} (asserted : s.stopAsserted = true)
    (lines : ∀ g, (s.cueLine g).atRest) : StopRests ((stopOrder order).foldl stopReported s) := by
  have all := BlockStep.foldl stopReported_step (stopOrder order) s
  intro _
  have stays : ∀ (t : State) (r : StopReport), t.stopAsserted = true → (stopReported t r).stopAsserted = true :=
    fun t r ht => (stopReported_step t r).stopAsserted.trans ht
  refine ⟨?_, fun m hm => ?_, fun g => (all.rests asserted).2.2 g (lines g)⟩
  · exact foldl_establishes (Q := fun t => t.run.phase.active = false) (a := .runController) stays
      (fun t r ha hq => ((stopReported_step t r).rests ha).1 hq) (fun t _ => holdRun_inactive t _ _)
      (mem_stopOrder order _) asserted
  · have configured : (s.machine m).configured = true := (all.configured m).symm.trans hm
    refine foldl_establishes (A := fun t => t.stopAsserted = true ∧ (t.machine m).configured = true)
      (Q := fun t => (t.machine m).rests) (a := .machineController)
      (fun t r ha => ⟨stays t r ha.1, ((stopReported_step t r).configured m).trans ha.2⟩)
      (fun t r ha hq => ((stopReported_step t r).rests ha.1).2.1 m hq) (fun t ha => ?_)
      (mem_stopOrder order _) ⟨asserted, configured⟩
    have stopped := (BlockStep.of_machines (allStop_step t)).stopAsserted.trans ha.1
    exact ((deliver_step (allStop t)).rests stopped).2.1 m (allStop_rests t m ha.2)

theorem stopAssertion_keeps (order : List StopReport) (s : State) :
    Keeps s ((stopOrder order).foldl stopReported (assertStop (withoutCue s)))
      ∧ SameList s ((stopOrder order).foldl stopReported (assertStop (withoutCue s))) := by
  have reports := BlockStep.foldl stopReported_step (stopOrder order) (assertStop (withoutCue s))
  obtain ⟨safe, list, leaders, same⟩ := assertStop_keeps (withoutCue s)
  have cue := withoutCue_keeps s
  refine ⟨⟨reports.keeps.safe ∘ safe ∘ cue.safe, reports.keeps.list ∘ list ∘ cue.list, fun _ => ?_,
    reports.keeps.leaders ∘ leaders ∘ cue.leaders⟩, SameList.trans same reports.sameList⟩
  exact stopReports_rest order (assertStop_asserted _) (assertStop_lines _)

theorem stopRelease_keeps (s : State) :
    Keeps s (cueLinesField (setFreeze (recogniseStop (withoutCue s) .released) false))
      ∧ SameList s (cueLinesField (setFreeze (recogniseStop (withoutCue s) .released) false)) := by
  have after := (BlockStep.updateEffects (recogniseStop (withoutCue s) .released) (fun g => { g with freeze := false })).trans
    (cueLinesField_step _)
  obtain ⟨safe, list, leaders, same⟩ := recogniseStop_keeps (withoutCue s) .released
  have cue := withoutCue_keeps s
  refine ⟨⟨after.keeps.safe ∘ safe ∘ cue.safe, after.keeps.list ∘ list ∘ cue.list, fun _ => after.keeps.rests ?_,
    after.keeps.leaders ∘ leaders ∘ cue.leaders⟩, SameList.trans same after.sameList⟩
  exact fun h => absurd (show (StopState.released == .asserted) = true from h) (by decide)

/-! ### The reference (R15 to R19) -/

/-- The time and the reference detector's fields: nothing the invariants look at but the good-pulse count. -/
theorem timeline_keeps {s : State} {n : Nat} {f : Timeline → Timeline}
    (standard : (f s.timeline).standard = s.timeline.standard) (origin : (f s.timeline).origin = s.timeline.origin)
    (good : s.timeline.goodCount ≤ Config.goodPulses → (f s.timeline).goodCount ≤ Config.goodPulses) :
    Keeps s ((advanceTo s n).updateTimeline f) ∧ SameList s ((advanceTo s n).updateTimeline f) :=
  ⟨.of_outer rfl standard origin good id id, rfl, rfl⟩

theorem countAfter_le (s : State) (t : Nat) (fieldId : Parity) : countAfter s t fieldId ≤ Config.goodPulses := by
  unfold countAfter
  split
  · exact Nat.min_le_left _ _
  · decide

theorem takePulse_keeps (s : State) (t : Nat) (fieldId : Parity) :
    Keeps s (takePulse s t fieldId) ∧ SameList s (takePulse s t fieldId) :=
  timeline_keeps rfl rfl fun _ => countAfter_le s t fieldId

theorem followCount_keeps (s : State) : Keeps s (followCount s) ∧ SameList s (followCount s) :=
  ⟨.of_outer rfl rfl rfl id id id, rfl, rfl⟩

/-- Two steps that each keep the invariants and the list. -/
theorem keeps_trans {s t u : State} (h : Keeps s t ∧ SameList s t) (k : Keeps t u ∧ SameList t u) :
    Keeps s u ∧ SameList s u := ⟨h.1.trans k.1, h.2.trans k.2⟩

theorem BlockStep.keepsBoth {s t : State} (h : BlockStep s t) : Keeps s t ∧ SameList s t := ⟨h.keeps, h.sameList⟩

theorem FieldTaken.keepsBoth {s t : State} (h : FieldTaken s t) : Keeps s t ∧ SameList s t := ⟨h.keeps, h.sameList⟩

theorem pulseOnReference_keeps (s : State) (t : Nat) (fieldId : Parity) (takers : List Receiver) :
    Keeps s (pulseOnReference s t fieldId takers) ∧ SameList s (pulseOnReference s t fieldId takers) := by
  have taken := takePulse_keeps s t fieldId
  unfold pulseOnReference
  split
  · split
    · exact taken
    · refine keeps_trans taken (keeps_trans (t := State.updateTimeline _ _) ?_ (fieldStart_keeps _ _ _))
      exact ⟨.of_outer rfl rfl rfl id id id, rfl, rfl⟩
  · exact keeps_trans taken ⟨.of_outer rfl rfl rfl id id id, rfl, rfl⟩

theorem goOnReference_keeps (s : State) (t : Nat) (fieldId : Parity) :
    Keeps s (goOnReference s t fieldId) ∧ SameList s (goOnReference s t fieldId) := by
  refine keeps_trans (takePulse_keeps s t fieldId) (keeps_trans (t := State.updateTimeline _ _) ?_
    (BlockStep.raiseNotice _ _).keepsBoth)
  exact ⟨.of_outer rfl rfl rfl id id id, rfl, rfl⟩

theorem switchToReference_keeps (s : State) (t : Nat) (fieldId : Parity) (takers : List Receiver) :
    Keeps s (switchToReference s t fieldId takers) ∧ SameList s (switchToReference s t fieldId takers) := by
  unfold switchToReference
  split
  · exact goOnReference_keeps s t fieldId
  · exact keeps_trans (goOnReference_keeps s t fieldId) (fieldStart_keeps _ _ _)

theorem pulseOffReference_keeps (s : State) (t : Nat) (fieldId : Parity) (takers : List Receiver) :
    Keeps s (pulseOffReference s t fieldId takers) ∧ SameList s (pulseOffReference s t fieldId takers) := by
  unfold pulseOffReference
  split
  · refine keeps_trans (settle_step s).keepsBoth ?_
    split
    · exact switchToReference_keeps _ t fieldId takers
    · exact keeps_trans (takePulse_keeps _ t fieldId) (followCount_keeps _)
  · exact keeps_trans (takePulse_keeps s t fieldId) (followCount_keeps _)

theorem loss_keeps (s : State) (t : Nat) (takers : List Receiver) :
    Keeps s (loss s t takers) ∧ SameList s (loss s t takers) := by
  unfold loss
  refine keeps_trans (t := loseReference s t) ⟨.of_outer rfl rfl rfl id id id, rfl, rfl⟩ ?_
  refine keeps_trans (fieldStart_keeps _ (oppositeToLast s) takers) ?_
  exact ((BlockStep.raiseNotice _ _).trans (holdRun_step _ _ _)).keepsBoth

/-! ### The console link -/

/-- A change of the console link that overfills no queue. -/
theorem console_keeps {s : State} {f : ConsolePort → ConsolePort} (h : ConsoleQueuesFit s → ConsoleQueuesFit (s.updateConsole f)) :
    Keeps s (s.updateConsole f) ∧ SameList s (s.updateConsole f) := ⟨.of_outer rfl rfl rfl id h id, rfl, rfl⟩

theorem joinInbound_keeps (s : State) (q : RequestMessage) : Keeps s (joinInbound s q) ∧ SameList s (joinInbound s q) := by
  unfold joinInbound
  split
  · rename_i room
    refine console_keeps fun ⟨_, replies, notices⟩ => ⟨?_, replies, notices⟩
    simp only [State.updateConsole_console, List.length_append, List.length_cons, List.length_nil]
    omega
  · exact console_keeps id

theorem receiveMessage_keeps (s : State) (bytes : List Byte) :
    Keeps s (receiveMessage s bytes) ∧ SameList s (receiveMessage s bytes) := by
  unfold receiveMessage
  split
  · exact ⟨.refl s, .refl s⟩
  · exact ⟨.refl s, .refl s⟩
  · exact console_keeps id
  · exact joinInbound_keeps s _

theorem receiveRest_keeps (s : State) (bytes : List Byte) : Keeps s (receiveRest s bytes) ∧ SameList s (receiveRest s bytes) := by
  unfold receiveRest
  split
  · exact ⟨.refl s, .refl s⟩
  · split
    · exact receiveMessage_keeps s _
    · exact console_keeps id

/-- A message removed leaves no queue longer. -/
theorem removeOutgoing_lengths (c : ConsolePort) (t : Transfer) (complete : Bool) :
    (removeOutgoing c t complete).inbound = c.inbound ∧ (removeOutgoing c t complete).replies.length ≤ c.replies.length
      ∧ (removeOutgoing c t complete).notices.length ≤ c.notices.length := by
  unfold removeOutgoing
  split
  · exact ⟨rfl, (Nat.le_refl _), (Nat.le_refl _)⟩
  · split
    · exact ⟨rfl, by simp, (Nat.le_refl _)⟩
    · exact ⟨rfl, (Nat.le_refl _), (Nat.le_refl _)⟩
  · split
    · exact ⟨rfl, (Nat.le_refl _), by simp⟩
    · exact ⟨rfl, (Nat.le_refl _), (Nat.le_refl _)⟩

theorem removeOutgoing_keeps (s : State) (t : Transfer) (complete : Bool) (sent : List Byte) :
    let u := s.updateConsole (fun c => { removeOutgoing c t complete with transfer := none, sent := sent })
    Keeps s u ∧ SameList s u := by
  obtain ⟨inbound, replies, notices⟩ := removeOutgoing_lengths s.console t complete
  exact console_keeps fun ⟨a, b, c⟩ => ⟨by simpa [inbound] using a, Nat.le_trans replies b, Nat.le_trans notices c⟩

/-! ### The commands -/

/-- A step that does one of two pieces of work. -/
theorem keeps_of_cases {p : Prop} [Decidable p] {s t t' u : State}
    (h : (if p then (Host.Outcome.next t : Step) else .next t') = .next u) (k : Keeps s t ∧ SameList s t)
    (k' : Keeps s t' ∧ SameList s t') : Keeps s u ∧ SameList s u := by
  split at h <;> (injection h with h; subst h)
  · exact k
  · exact k'

/-- A step that does a piece of work or nothing. -/
theorem keeps_of_ite {p : Prop} [Decidable p] {s t u : State}
    (h : (if p then (Host.Outcome.next t : Step) else .next s) = .next u)
    (k : Keeps s t ∧ SameList s t) : Keeps s u ∧ SameList s u := keeps_of_cases h k ⟨.refl s, .refl s⟩

theorem portStep_keeps {s : State} {m : MachineId} {p : Port} (h : PortStep (s.port m) p) :
    Keeps s (s.setPort m p) ∧ SameList s (s.setPort m p) := (BlockStep.of_machines (.setPort h)).keepsBoth

/-- A command that is no request keeps the invariants, and but for full reset the list. -/
theorem exec_event_keeps {c : Instr} {s t : State} (hc : isRequest c = false) (h : exec c s = .next t) :
    Keeps s t ∧ (c ≠ .fullReset → SameList s t) := by
  have same (k : Keeps s t ∧ SameList s t) : Keeps s t ∧ (c ≠ .fullReset → SameList s t) := ⟨k.1, fun _ => k.2⟩
  have idle (k : (Host.Outcome.next s : Step) = .next t) : Keeps s t ∧ SameList s t := by
    injection k with k; subst k; exact ⟨.refl s, .refl s⟩
  have taken (r : Receiver) := (takeField_taken_step s r).keepsBoth
  cases c with
  | fullReset =>
    injection h with h
    subst h
    exact ⟨fullReset_keeps s, fun k => absurd rfl k⟩
  | resetRelease => exact same (keeps_of_ite h ⟨.of_outer rfl rfl rfl id id id, rfl, rfl⟩)
  | internalFieldTick takers =>
    exact same (keeps_of_ite h (keeps_trans (t := tickAt _ _ _) (timeline_keeps rfl rfl id) (fieldStart_keeps _ _ _)))
  | referencePulse elapsed fieldId takers =>
    dsimp only [exec, execReferencePulse] at h
    split at h
    · exact same (idle h)
    split at h
    · injection h with h; subst h
      exact same ⟨.of_outer rfl rfl rfl id id id, rfl, rfl⟩
    · refine same (keeps_of_cases h (pulseOnReference_keeps _ _ _ _) (pulseOffReference_keeps _ _ _ _))
  | gapExpiry =>
    dsimp only [exec, execGapExpiry] at h
    split at h
    · split at h
      · exact same (idle h)
      · injection h with h; subst h
        exact same (timeline_keeps rfl rfl fun _ => Nat.zero_le _)
    · exact same (idle h)
  | lossExpiry takers =>
    dsimp only [exec, execLossExpiry] at h
    split at h
    · split at h
      · exact same (idle h)
      · injection h with h; subst h
        exact same (keeps_trans (settle_step s).keepsBoth (loss_keeps _ _ _))
    all_goals exact same (idle h)
  | exchangeTimeout m => exact same (keeps_of_ite h (taken _))
  | statusReply m chars =>
    dsimp only [exec, execStatusReply] at h
    split at h
    · injection h with h; subst h
      exact same (takeStatus_step s m _).keepsBoth
    · exact same (idle h)
  | nakRefused m chars => exact same (keeps_of_ite h (takeNakRefused_step s m).keepsBoth)
  | nakLocal m chars => exact same (keeps_of_ite h (takeNakLocal_step s m).keepsBoth)
  | checkFailure m chars faulty => exact same (keeps_of_ite h (failExchange_step s m).keepsBoth)
  | unsolicitedCharacter m => exact same (keeps_of_ite h (countUnsolicited_step s m).keepsBoth)
  | portOffline m cause =>
    dsimp only [exec, execPortOffline] at h
    split at h
    · split at h
      · exact same (keeps_of_ite h (taken _))
      · exact same (keeps_of_ite h (failExchange_step s m).keepsBoth)
      · exact same (keeps_of_ite h (countUnsolicited_step s m).keepsBoth)
    · exact same (idle h)
  | recoveryPoll m => exact same (keeps_of_ite h (taken _))
  | ctlPulse m forward =>
    exact same (keeps_of_ite h (portStep_keeps ⟨id, id, Port.countPulse_fits forward⟩))
  | lock m chars =>
    dsimp only [exec, execLock] at h
    split at h
    · split at h
      · exact same (keeps_of_ite h (takeStatus_step s m _).keepsBoth)
      · exact same (idle h)
    · exact same (idle h)
  | unlock m cause =>
    dsimp only [exec, execUnlock] at h
    split at h
    · split at h
      · exact same (keeps_of_ite h (takeStatus_step s m _).keepsBoth)
      · exact same (idle h)
    · exact same (keeps_of_ite h (taken _))
  | roll => exact same (keeps_of_ite h (taken _))
  | cueTimeout => exact same (keeps_of_ite h (taken _))
  | syncDeadline => exact same (keeps_of_ite h (taken _))
  | editOnField => exact same (keeps_of_ite h (taken _))
  | editOffField => exact same (keeps_of_ite h (taken _))
  | postrollEnd => exact same (keeps_of_ite h (taken _))
  | cueFire g => exact same (keeps_of_ite h (taken _))
  | cuePulseEnd g => exact same (keeps_of_ite h (taken _))
  | stopAssertion order => exact same (keeps_of_ite h (stopAssertion_keeps order s))
  | stopRelease => exact same (keeps_of_ite h (stopRelease_keeps s))
  | transferStart =>
    dsimp only [exec, execTransferStart] at h
    split at h
    · injection h with h; subst h
      exact same (console_keeps id)
    · exact same (idle h)
  | requestReceived bytes =>
    dsimp only [exec, execRequestReceived] at h
    split at h
    · exact same (keeps_of_ite h (keeps_trans (receiveMessage_keeps s bytes) (console_keeps id)))
    · exact same (idle h)
  | transferEnd bytes =>
    dsimp only [exec, execTransferEnd] at h
    split at h
    · injection h with h; subst h
      refine same (keeps_trans ?_ (removeOutgoing_keeps _ _ _ _))
      split
      · exact ⟨.refl s, .refl s⟩
      · exact receiveRest_keeps s bytes
    · exact same (idle h)
  | replyCharacter m char =>
    dsimp only [exec, execReplyCharacter] at h
    split at h
    · exact same (keeps_of_ite h (portStep_keeps (Port.withProgress_step _ _)))
    · exact same (idle h)
  | requestSent m => exact same (keeps_of_ite h (portStep_keeps (Port.withProgress_step _ _)))
  | _ => exact absurd hc (by simp [isRequest])

end Sys2Proof.Machine
end

section
/-! SUPPORT. What the owner of a request may answer, and that every owner but the list changes answers so: it takes nothing
more from the link's queues, a refusal changes nothing, and the invariants and the list are kept. -/

namespace Sys2Proof.Machine

/-! ### Answers -/

/-- An answer leaves the inbound and reply queues alone, changes nothing when it refuses, and keeps the invariants. -/
structure Answers (s : State) (a : Answer) : Prop where
  inbound : a.state.console.inbound = s.console.inbound
  replies : a.state.console.replies = s.console.replies
  refusal : a.result.served = false → a.state = s
  keeps : Keeps s a.state

/-- An answer that keeps the list as well. -/
structure QuietAnswers (s : State) (a : Answer) : Prop extends Answers s a where
  same : SameList s a.state

theorem refuse_quiet (s : State) (r : Refused) : QuietAnswers s (refuse s r) := ⟨⟨rfl, rfl, fun _ => rfl, .refl s⟩, .refl s⟩

theorem refuseWith_quiet (s : State) (r : Result) : QuietAnswers s (refuseWith s r) := refuse_quiet s _

/-- A lookup: whatever its result, it changes nothing. -/
theorem unchanged_quiet (s : State) (result : Result) (data : List Byte) : QuietAnswers s ⟨s, result, data⟩ :=
  ⟨⟨rfl, rfl, fun _ => rfl, .refl s⟩, .refl s⟩

theorem OnlyNotices.inbound {s t : State} (h : OnlyNotices s t) : t.console.inbound = s.console.inbound := by rw [h]
theorem OnlyNotices.replies {s t : State} (h : OnlyNotices s t) : t.console.replies = s.console.replies := by rw [h]
theorem OnlyNotices.overrun {s t : State} (h : OnlyNotices s t) : t.console.overrun = s.console.overrun := by rw [h]
theorem OnlyNotices.transfer {s t : State} (h : OnlyNotices s t) : t.console.transfer = s.console.transfer := by rw [h]
theorem OnlyNotices.sent {s t : State} (h : OnlyNotices s t) : t.console.sent = s.console.sent := by rw [h]

/-- A request served by work that shows the link nothing but notices. -/
theorem QuietAnswers.of_keeps {s t : State} {result : Result} {data : List Byte} (served : result.served = true)
    (link : OnlyNotices s t) (k : Keeps s t ∧ SameList s t) : QuietAnswers s ⟨t, result, data⟩ :=
  ⟨⟨link.inbound, link.replies, fun h => by simp [served] at h, k.1⟩, k.2⟩

theorem QuietAnswers.of_block {s t : State} {result : Result} {data : List Byte} (served : result.served = true)
    (h : BlockStep s t) : QuietAnswers s ⟨t, result, data⟩ := .of_keeps served h.link h.keepsBoth

theorem okOr_served (b : Bool) : (okOr b).served = true := by cases b <;> rfl

theorem acceptedOr_served (b : Bool) : (acceptedOr b).served = true := by cases b <;> rfl

/-! ### One machine record changed by configuration -/

/-- A record written by a configuration request. -/
theorem setMachine_keeps_of {s : State} {m : MachineId} {r : MachineRec} (counts : (s.machine m).countsFit → r.countsFit)
    (mode : ModesAllowed s → s.timeline.standard.allows r.params.mode = true)
    (domain : s.recorder = some m → (s.machine m).configured = true →
      r.configured = true ∧ (r.params.mode = modeOf s m ∨ s.store.events = []))
    (rests : s.stopAsserted = true → ((s.machine m).configured = true → (s.machine m).rests) → r.configured = true → r.rests)
    (leaders : LeadersEnd s → LeadersEnd (s.setMachine m r)) :
    Keeps s (s.setMachine m r) ∧ SameList s (s.setMachine m r) := by
  have each {P : MachineId → MachineRec → Prop} (hr : P m r) (hs : ∀ n, P n (s.machine n)) (n) :
      P n ((s.setMachine m r).machine n) := by
    by_cases hn : n = m
    · subst hn; simpa using hr
    · rw [State.setMachine_machine_other s r hn]; exact hs n
  refine ⟨⟨?safe, ?list, ?rests, leaders⟩, rfl, rfl⟩
  case safe =>
    rintro ⟨ports, link, ⟨good, done, cueing, ctl, fits⟩, modes, waits⟩
    exact ⟨ports, link, ⟨good, done, cueing, ctl, each (P := fun _ x => x.countsFit) (counts (fits m)) fits⟩,
      each (P := fun _ x => s.timeline.standard.allows x.params.mode = true) (mode modes) modes, waits⟩
  case list =>
    intro h
    have recorder : RecorderConfigured (s.setMachine m r) := by
      intro n hn
      exact each (P := fun n x => s.recorder = some n → x.configured = true) (fun k => (domain k (h.1 m k)).1) h.1 n hn
    by_cases hm : s.recorder = some m
    · obtain ⟨-, mode | empty⟩ := domain hm (h.1 m hm)
      · refine ListSound.of_same (s := s) (fun _ => recorder) ⟨?_, rfl⟩ ⟨rfl, rfl⟩ h
        show (timelineMode _).day = (timelineMode s).day
        unfold timelineMode
        rw [State.setMachine_recorder, hm]
        show ((s.setMachine m r).machine m).params.mode.day = _
        rw [State.setMachine_machine, mode]
      · obtain ⟨-, -, ⟨-, -, counter⟩, -⟩ := h
        exact .of_empty recorder empty counter
    · refine ListSound.of_same (s := s) (fun _ => recorder) ⟨?_, rfl⟩ ⟨rfl, rfl⟩ h
      show (timelineMode _).day = (timelineMode s).day
      unfold timelineMode
      rw [State.setMachine_recorder]
      split
      · rename_i n hn
        have other : n ≠ m := fun k => hm (k ▸ hn)
        show ((s.setMachine m r).machine n).params.mode.day = _
        rw [State.setMachine_machine_other s r other]
        rfl
      · rfl
  case rests =>
    intro h stop
    obtain ⟨idle, free, lines⟩ := h stop
    exact ⟨idle, each (P := fun _ x => x.configured = true → x.control = .free ∧ x.leader = .noLeader)
      (fun k => rests stop (fun c => free m c) k) free, lines⟩

theorem setMachine_keeps {s : State} {m : MachineId} {r : MachineRec} (counts : (s.machine m).countsFit → r.countsFit)
    (mode : ModesAllowed s → s.timeline.standard.allows r.params.mode = true)
    (domain : s.recorder = some m → (s.machine m).configured = true →
      r.configured = true ∧ (r.params.mode = modeOf s m ∨ s.store.events = []))
    (rests : ((s.machine m).configured = true → (s.machine m).rests) → r.configured = true → r.rests)
    (leader : r.leader = (s.machine m).leader ∨ r.following = false) :
    Keeps s (s.setMachine m r) ∧ SameList s (s.setMachine m r) := by
  refine setMachine_keeps_of counts mode domain (fun _ => rests) (.of_fewer fun n => ?_)
  by_cases hn : n = m
  · subst hn; simpa using leader
  · rw [State.setMachine_machine_other s r hn]; exact .inl rfl

/-! ### CONFIGURE MACHINE (R90, R95, R96) -/

/-- Parameters that pass the tests leave a count that is counted up to within 15, and a mode that the standard allows. -/
theorem paramsInRange_bounds {std : Standard} {p : ConfigureParams} (h : paramsInRange std p = true) (base : MachineParams) :
    (base.lockCount ≤ 15 → (mergeParams base p).lockCount ≤ 15)
      ∧ (base.unlockCount ≤ 15 → (mergeParams base p).unlockCount ≤ 15)
      ∧ ((mergeParams base p).mode = base.mode ∨ std.allows (mergeParams base p).mode = true) := by
  simp only [paramsInRange, Bool.and_eq_true] at h
  obtain ⟨⟨⟨⟨⟨⟨⟨⟨⟨mode, -⟩, -⟩, lock⟩, unlock⟩, -⟩, -⟩, -⟩, -⟩, -⟩ := h
  refine ⟨fun hb => ?_, fun hb => ?_, ?_⟩
  · unfold mergeParams
    cases hp : p.lockCount with
    | none => exact hb
    | some n => simp only [hp, passes, within, Bool.and_eq_true, decide_eq_true_eq] at lock; exact lock.2
  · unfold mergeParams
    cases hp : p.unlockCount with
    | none => exact hb
    | some n => simp only [hp, passes, within, Bool.and_eq_true, decide_eq_true_eq] at unlock; exact unlock.2
  · unfold mergeParams
    cases hp : p.mode with
    | none => exact .inl rfl
    | some n =>
      simp only [hp, passes, modeAllowed] at mode
      split at mode
      · rename_i x hx; exact .inr (by simpa [hx] using mode)
      · simp at mode

theorem Standard.allows_defaultMode (std : Standard) : std.allows std.defaultMode = true := by cases std <;> rfl

theorem Port.configured_step (p : Port) : PortStep p p.configured :=
  ⟨fun _ => ⟨Nat.zero_le _, Nat.zero_le _⟩, fun _ => Port.lineHeld_of_offLine rfl,
    fun _ => ⟨by simp [Port.configured, Port.anchorCleared, Port.ctlCleared],
      by simp [Port.configured, Port.anchorCleared, Port.ctlCleared], Nat.zero_le _⟩⟩

theorem Port.unconfigured_step (p : Port) : PortStep p p.unconfigured :=
  ⟨fun _ => ⟨Nat.zero_le _, Nat.zero_le _⟩, fun _ => Port.lineHeld_of_offLine rfl, id⟩

theorem Port.ctlCleared_step (p : Port) : PortStep p p.ctlCleared :=
  ⟨id, id, fun _ => ⟨by simp [Port.ctlCleared], by simp [Port.ctlCleared], Nat.zero_le _⟩⟩

theorem Port.anchorCleared_step (p : Port) : PortStep p p.anchorCleared := p.ctlCleared_step.trans ⟨id, id, id⟩

theorem Port.withCtl_step (p : Port) (b : Bool) : PortStep p (p.withCtl b) := by
  cases b
  · exact p.ctlCleared_step
  · exact .refl p

theorem unconfiguredRec_fits (std : Standard) : (unconfiguredRec std).countsFit :=
  ⟨Nat.zero_le _, ⟨(by decide : 8 ≤ 15), Nat.zero_le _⟩, ⟨(by decide : 4 ≤ 15), Nat.zero_le _⟩,
    fun l h => by simp [unconfiguredRec] at h⟩

theorem configureNew_keeps {s : State} {m : MachineId} {p : ConfigureParams} (hm : (s.machine m).configured = false)
    (hp : paramsInRange s.timeline.standard p = true) :
    Keeps s (configureNew s m p) ∧ SameList s (configureNew s m p) ∧ OnlyNotices s (configureNew s m p) := by
  have link := changeLink_step ((s.setPort m (s.port m).configured).setMachine m
    (configuredRec (mergeParams (defaultParams s.timeline.standard) p))) m .online
  obtain ⟨lock, unlock, mode⟩ := paramsInRange_bounds hp (defaultParams s.timeline.standard)
  have written : Keeps (s.setPort m (s.port m).configured) _ ∧ SameList _ _ :=
    setMachine_keeps (m := m) (r := configuredRec (mergeParams (defaultParams s.timeline.standard) p))
      (fun _ => ⟨Nat.zero_le _, ⟨lock (by decide : 8 ≤ 15), Nat.zero_le _⟩, ⟨unlock (by decide : 4 ≤ 15), Nat.zero_le _⟩,
        fun l h => by simp [configuredRec, unconfiguredRec] at h⟩)
      (fun _ => mode.elim (fun k => (congrArg _ k).trans s.timeline.standard.allows_defaultMode) id) (fun _ k => by simp [hm] at k) (fun _ _ => ⟨rfl, rfl⟩) (.inr rfl)
  have both := keeps_trans (portStep_keeps (Port.configured_step _)) (keeps_trans written (BlockStep.of_machines link).keepsBoth)
  exact ⟨both.1, both.2, link.only.2⟩

theorem reconfigure_keeps {s : State} {m : MachineId} {p : ConfigureParams} (hp : paramsInRange s.timeline.standard p = true) :
    Keeps s (reconfigure s m p) ∧ SameList s (reconfigure s m p) := by
  obtain ⟨lock, unlock, -⟩ := paramsInRange_bounds hp (s.machine m).params
  refine keeps_trans (portStep_keeps (Port.withCtl_step _ _)) (setMachine_keeps ?_ ?_ ?_ ?_ (.inl rfl))
  · exact fun ⟨a, b, c, d⟩ => ⟨a, ⟨lock b.1, b.2⟩, ⟨unlock c.1, c.2⟩, d⟩
  · exact fun h => h m
  · exact fun _ hc => ⟨hc, .inl rfl⟩
  · exact fun h hc => h hc

theorem MachineRec.locateEnded_step (x : MachineRec) : RecStep x x.locateEnded := by
  refine ⟨rfl, rfl, fun ⟨a, b, c, d⟩ => ⟨a, b, c, fun l h => by simp [MachineRec.locateEnded] at h⟩, .inl rfl, fun ⟨a, b⟩ => ⟨?_, b⟩⟩
  unfold MachineRec.locateEnded
  dsimp only
  split
  · rfl
  · exact a

theorem configurationEndsLocate_step (before s : State) (m : MachineId) : MachineStep s (configurationEndsLocate before s m) := by
  unfold configurationEndsLocate
  split
  · exact reportLocateFailure_step s m _ _ _
  · exact .refl s

theorem endMotionOfMode_step (before s : State) (m : MachineId) : MachineStep s (endMotionOfMode before s m) := by
  unfold endMotionOfMode
  refine MachineStep.trans (changeMachine_step (m := m) (MachineRec.locateEnded_step (s.machine m))) ?_
  exact (configurationEndsLocate_step before _ m).trans (cancelFollowsOf_step _ m)

theorem enterMode_keeps {s : State} {m : MachineId} {mode : LabelMode} (allowed : s.timeline.standard.allows mode = true)
    (empty : s.recorder = some m → s.store.events = []) :
    Keeps s (enterMode s m mode) ∧ SameList s (enterMode s m mode) := by
  refine keeps_trans (portStep_keeps (Port.anchorCleared_step _)) (setMachine_keeps id ?_ ?_ ?_ (.inl rfl))
  · exact fun _ => allowed
  · exact fun hr hc => ⟨hc, .inr (empty hr)⟩
  · exact fun h hc => h hc

theorem changeLabelMode_keeps {s : State} {m : MachineId} {mode : LabelMode} (allowed : s.timeline.standard.allows mode = true)
    (empty : s.recorder = some m → s.store.events = []) :
    Keeps s (changeLabelMode s m mode) ∧ SameList s (changeLabelMode s m mode) :=
  keeps_trans (enterMode_keeps allowed empty) (BlockStep.of_machines (endMotionOfMode_step s _ m)).keepsBoth

/-- The origin says nothing of an empty list. -/
theorem origin_keeps {s : State} (empty : s.store.events = []) (p : Nat) :
    Keeps s (s.updateTimeline (fun t => { t with origin := p })) ∧ SameList s (s.updateTimeline (fun t => { t with origin := p })) :=
  ⟨⟨fun h => h, fun ⟨recorder, _, ⟨_, _, counter⟩, _⟩ => .of_empty recorder empty counter, fun h => h,
    .of_fewer fun _ => .inl rfl⟩, rfl, rfl⟩

theorem changeModeTo_keeps {s : State} {m : MachineId} {mode : LabelMode} (allowed : s.timeline.standard.allows mode = true)
    (empty : s.recorder = some m → s.store.events = []) :
    Keeps s (changeModeTo s m mode) ∧ SameList s (changeModeTo s m mode) ∧ OnlyNotices s (changeModeTo s m mode) := by
  have changed := changeLabelMode_keeps allowed empty
  have only := changeLabelMode_machinesOnly s m mode
  unfold changeModeTo
  split
  · rename_i hr
    have zeroed := origin_keeps (s := changeLabelMode s m mode) (by rw [only.store]; exact empty hr) 0
    exact ⟨changed.1.trans zeroed.1, changed.2.trans zeroed.2, only.2⟩
  · exact ⟨changed.1, changed.2, only.2⟩

theorem unconfigure_keeps {s : State} {m : MachineId} (hr : s.recorder ≠ some m) :
    Keeps s (unconfigure s m) ∧ SameList s (unconfigure s m) ∧ OnlyNotices s (unconfigure s m) := by
  unfold unconfigure
  dsimp only
  generalize ht : cancelFollowsOf _ m = t
  have ended : MachineStep s t := by
    subst ht
    refine MachineStep.trans (changeMachine_step (m := m) (MachineRec.locateEnded_step (s.machine m))) ?_
    exact (configurationEndsLocate_step s _ m).trans (cancelFollowsOf_step _ m)
  have recorder : t.recorder ≠ some m := by rw [ended.only.recorder]; exact hr
  have written : Keeps (t.setPort m (t.port m).unconfigured) _ ∧ SameList _ _ :=
    setMachine_keeps (m := m) (r := unconfiguredRec t.timeline.standard) (fun _ => unconfiguredRec_fits _)
      (fun _ => t.timeline.standard.allows_defaultMode) (fun k => absurd k recorder) (fun _ k => by simp [unconfiguredRec] at k)
      (.inr rfl)
  have raised := BlockStep.raiseNotice ((t.setPort m (t.port m).unconfigured).setMachine m (unconfiguredRec t.timeline.standard))
    (machineStateNotice ((t.setPort m (t.port m).unconfigured).setMachine m (unconfiguredRec t.timeline.standard)) m)
  have both := keeps_trans (BlockStep.of_machines ended).keepsBoth
    (keeps_trans (portStep_keeps (Port.unconfigured_step _)) (keeps_trans written raised.keepsBoth))
  exact ⟨both.1, both.2, ended.only.2.trans (raiseNotice_onlyNotices _ _)⟩

/-- A recorder that a live event references is kept from change by R95. -/
theorem events_empty_of_not_referenced {s : State} {m : MachineId} (h : anyReferences s m = false) (hr : s.recorder = some m) :
    s.store.events = [] := by
  unfold anyReferences at h
  simp only [hr, beq_self_eq_true, Bool.or_true] at h
  cases hs : s.store.events with
  | nil => rfl
  | cons e es => simp [hs] at h

theorem configured_keeps {s : State} {m : MachineId} {configure : Bool} {p : ConfigureParams}
    (hp : paramsInRange s.timeline.standard p = true) (hu : configureInUse s m configure p = false) :
    Keeps s (configured s m configure p) ∧ SameList s (configured s m configure p)
      ∧ OnlyNotices s (configured s m configure p) := by
  simp only [configureInUse, Bool.or_eq_false_iff, Bool.and_eq_false_iff] at hu
  obtain ⟨used, recorder⟩ := hu
  unfold configured
  split
  · split
    · have re := reconfigure_keeps (s := s) (m := m) hp
      split
      · rename_i hc hk hw
        have allowed : s.timeline.standard.allows (mergeParams (s.machine m).params p).mode = true := by
          rcases (paramsInRange_bounds hp (s.machine m).params).2.2 with k | k
          · simp only [wouldChangeMode, Bool.and_eq_true, bne_iff_ne] at hw
            exact absurd k hw.2
          · exact k
        have empty : s.recorder = some m → s.store.events = [] := by
          subst hc
          rcases used with used | used
          · simp [hw] at used
          · exact events_empty_of_not_referenced used.1
        have changed := changeModeTo_keeps (s := reconfigure s m p) (m := m) allowed empty
        exact ⟨re.1.trans changed.1, re.2.trans changed.2.1, changed.2.2⟩
      · exact ⟨re.1, re.2, rfl⟩
    · rename_i hk
      exact configureNew_keeps (by simpa using hk) hp
  · rename_i hc
    split
    · rename_i hk
      refine unconfigure_keeps fun hr => ?_
      simp [wouldUnconfigure, hk, hc, hr] at recorder
    · exact ⟨.refl s, .refl s, rfl⟩

end Sys2Proof.Machine
end

section
/-! SUPPORT. The answers of every request but the list changes. -/

namespace Sys2Proof.Machine

/-! ### SET STANDARD (R2, R98) -/

/-- What holds while the records go over to the new standard one by one: every range but the label modes, an empty list, the
rest under STOP and the leaders. -/
structure ModeChange (s t : State) : Prop where
  link : OnlyNotices s t
  ports : PortQueuesFit s → PortQueuesFit t
  console : ConsoleQueuesFit s → ConsoleQueuesFit t
  counts : CountsFit s → CountsFit t
  waits : WaitsOnce s → WaitsOnce t
  standard : t.timeline.standard = s.timeline.standard
  recorder : RecorderConfigured s → RecorderConfigured t
  store : t.store = s.store
  rests : StopRests s → StopRests t
  leaders : LeadersEnd s → LeadersEnd t

theorem ModeChange.refl (s : State) : ModeChange s s := ⟨rfl, id, id, id, id, rfl, id, rfl, id, id⟩

theorem ModeChange.trans {s t u : State} (h : ModeChange s t) (k : ModeChange t u) : ModeChange s u :=
  ⟨h.link.trans k.link, k.ports ∘ h.ports, k.console ∘ h.console, k.counts ∘ h.counts, k.waits ∘ h.waits,
    k.standard.trans h.standard, k.recorder ∘ h.recorder, k.store.trans h.store, k.rests ∘ h.rests, k.leaders ∘ h.leaders⟩

/-- One port step and one record that keeps all but its label mode and what belongs to its domain. -/
theorem ModeChange.setUnit {s : State} {m : MachineId} {p : Port} {r : MachineRec} (hp : PortStep (s.port m) p)
    (configured : r.configured = (s.machine m).configured) (counts : (s.machine m).countsFit → r.countsFit)
    (control : r.control = (s.machine m).control) (leader : r.leader = (s.machine m).leader) :
    ModeChange s ((s.setPort m p).setMachine m r) := by
  have port := (MachineStep.setPort hp).port
  have each {P : MachineId → MachineRec → Prop} (hr : P m r) (hs : ∀ n, P n (s.machine n)) (n) :
      P n (((s.setPort m p).setMachine m r).machine n) := by
    by_cases hn : n = m
    · subst hn; simpa using hr
    · rw [State.setMachine_machine_other _ r hn]; exact hs n
  refine
    { link := rfl, console := id, waits := id, standard := rfl, store := rfl,
      ports := fun h n => ⟨(port n).fits (h n).1, (port n).held (h n).2⟩,
      counts := fun ⟨a, b, c, d, e⟩ => ⟨a, b, c, fun n => (port n).ctl (d n), each (P := fun _ x => x.countsFit) (counts (e m)) e⟩,
      recorder := fun h n hn => each (P := fun n x => s.recorder = some n → x.configured = true)
        (fun k => configured.trans (h m k)) h n hn, rests := fun h stop => ?_,
      leaders := .of_fewer (each (P := fun n x => x.leader = (s.machine n).leader ∨ x.following = false) (.inl leader)
        fun _ => .inl rfl) }
  obtain ⟨idle, free, lines⟩ := h stop
  refine ⟨idle, each (P := fun _ x => x.configured = true → x.control = .free ∧ x.leader = .noLeader) (fun k => ?_) free, lines⟩
  rw [control, leader]
  exact free m (configured.symm.trans k)

theorem enterDefaultMode_change (s : State) (std : Standard) (m : MachineId) : ModeChange s (enterDefaultMode s std m) := by
  unfold enterDefaultMode
  split
  · exact .setUnit (Port.anchorCleared_step _) rfl id rfl rfl
  · have unit := ModeChange.setUnit (m := m) (r := (s.machine m).withMode std.defaultMode) (.refl (s.port m)) rfl id rfl rfl
    have same : s.setPort m (s.port m) = s := by
      unfold State.setPort State.port
      rw [Bank.set_get]
    rwa [same] at unit

theorem enterDefaultMode_mode (s : State) (std : Standard) (m : MachineId) :
    ((enterDefaultMode s std m).machine m).params.mode = std.defaultMode := by
  unfold enterDefaultMode
  split
  · rw [enterMode_machine]; rfl
  · simp [updateMachine, MachineRec.withMode]

theorem enterDefaultMode_keepsMode (s : State) (std : Standard) (m n : MachineId)
    (h : (s.machine n).params.mode = std.defaultMode) :
    ((enterDefaultMode s std m).machine n).params.mode = std.defaultMode := by
  by_cases hn : n = m
  · subst hn; exact enterDefaultMode_mode s std n
  · unfold enterDefaultMode
    split
    · rw [(enterMode_others s m _ n hn).2]; exact h
    · rw [updateMachine, State.setMachine_machine_other s _ hn]; exact h

/-- Every machine takes the standard's default label mode. -/
theorem enterDefaultModes (s : State) (std : Standard) :
    ModeChange s (Unit8.all.foldl (fun x m => enterDefaultMode x std m) s)
      ∧ ∀ m, ((Unit8.all.foldl (fun x m => enterDefaultMode x std m) s).machine m).params.mode = std.defaultMode := by
  refine ⟨?_, fun m => ?_⟩
  · have fold (l : List MachineId) (x : State) : ModeChange x (l.foldl (fun x m => enterDefaultMode x std m) x) := by
      induction l generalizing x with
      | nil => exact .refl x
      | cons m ms ih => exact (enterDefaultMode_change x std m).trans (ih _)
    exact fold Unit8.all s
  · exact foldl_establishes (A := fun _ => True) (Q := fun x : State => (x.machine m).params.mode = std.defaultMode) (a := m)
      (fun _ _ _ => trivial) (fun x n _ h => enterDefaultMode_keepsMode x std n m h) (fun x _ => enterDefaultMode_mode x std m)
      (Unit8.mem_all m) trivial

theorem setStandardTimeline_spec (s : State) (std : Standard) (t : Nat) :
    setStandardTimeline s std t = retime s std t ∨ setStandardTimeline s std t = raiseNotice (retime s std t) (.reference .lost) := by
  unfold setStandardTimeline
  split
  · exact .inr rfl
  · exact .inl rfl

/-- R98 on an empty list: the modes of the new standard are in force once every record has gone over. -/
theorem setStandard_keeps {s : State} (std : Standard) (t : Nat) (empty : s.store.events = []) :
    Keeps s (setStandardMachines (setStandardTimeline s std t) std)
      ∧ SameList s (setStandardMachines (setStandardTimeline s std t) std)
      ∧ OnlyNotices s (setStandardMachines (setStandardTimeline s std t) std) := by
  unfold setStandardMachines
  generalize ht : setStandardTimeline s std t = u
  have raised (P : State → Prop) (h : P (retime s std t)) (k : BlockStep (retime s std t) (raiseNotice (retime s std t) (.reference .lost))
      → P (raiseNotice (retime s std t) (.reference .lost))) : P u := by
    rcases setStandardTimeline_spec s std t with hr | hr <;> rw [hr] at ht <;> subst ht
    · exact h
    · exact k (.raiseNotice _ _)
  have standard : u.timeline.standard = std := raised (fun u => u.timeline.standard = std) rfl fun _ => rfl
  have store : u.store = s.store := raised (fun u => u.store = s.store) rfl fun _ => rfl
  have link : OnlyNotices s u := raised (OnlyNotices s) rfl fun k => k.link
  have outer : (PortQueuesFit s → PortQueuesFit u) ∧ (ConsoleQueuesFit s → ConsoleQueuesFit u) ∧ (CountsFit s → CountsFit u)
      ∧ (WaitsOnce s → WaitsOnce u) ∧ (RecorderConfigured s → RecorderConfigured u) ∧ (StopRests s → StopRests u)
      ∧ (LeadersEnd s → LeadersEnd u) := by
    refine raised (fun u => (PortQueuesFit s → PortQueuesFit u) ∧ (ConsoleQueuesFit s → ConsoleQueuesFit u) ∧ (CountsFit s → CountsFit u)
      ∧ (WaitsOnce s → WaitsOnce u) ∧ (RecorderConfigured s → RecorderConfigured u) ∧ (StopRests s → StopRests u)
      ∧ (LeadersEnd s → LeadersEnd u)) ?_ ?_
    · exact ⟨id, id, fun ⟨_, h⟩ => ⟨Nat.zero_le _, h⟩, id, id, id, .of_fewer fun _ => .inl rfl⟩
    · exact fun k => ⟨id, fun ⟨a, b, c⟩ => ⟨k.link.inbound ▸ a, k.link.replies ▸ b, k.notices.fits c⟩,
        fun ⟨_, h⟩ => ⟨Nat.zero_le _, h⟩, id, id, id, .of_fewer fun _ => .inl rfl⟩
  obtain ⟨ports, console, counts, waits, recorder, rests, leaders⟩ := outer
  obtain ⟨change, modes⟩ := enterDefaultModes u std
  generalize Unit8.all.foldl (fun x m => enterDefaultMode x std m) u = v at change modes
  have ended : MachineStep v (Unit8.all.foldl (fun x m => if (x.machine m).configured then endMotionOfMode u x m else x) v) := by
    refine MachineStep.foldl (fun x m => ?_) _ v
    split
    · exact endMotionOfMode_step u x m
    · exact .refl x
  have after := (BlockStep.of_machines ended).keepsBoth
  have entered : Keeps s v ∧ SameList s v := by
    refine ⟨⟨fun ⟨a, b, c, _, e⟩ => ⟨change.ports (ports a), change.console (console b), change.counts (counts c), fun m => ?_,
      change.waits (waits e)⟩, fun ⟨hr, _, ⟨_, _, hc⟩, _⟩ => .of_empty (change.recorder (recorder hr)) ?_ ?_,
      change.rests ∘ rests, change.leaders ∘ leaders⟩, ?_, ?_⟩
    · rw [change.standard, standard, modes]; exact std.allows_defaultMode
    · rw [change.store, store]; exact empty
    · rw [change.store, store]; exact hc
    · rw [listOf, change.store, store]; rfl
    · rw [change.store, store]
  exact ⟨entered.1.trans after.1, entered.2.trans after.2, (link.trans change.link).trans ended.only.2⟩

/-! ### The Timeline Unit and the machine requests -/

theorem answerReadStatus_quiet (s : State) : Answers s (answerReadStatus s) ∧ SameList s (answerReadStatus s).state := by
  have kept := console_keeps (s := s) (f := fun c => { c with overrun := false, overflow := false }) id
  exact ⟨⟨rfl, rfl, fun h => absurd (show Result.served .ok = false from h) (by decide), kept.1⟩, kept.2⟩

theorem list_empty {s : State} (h : ¬(!s.store.events.isEmpty) = true) : s.store.events = [] := by simpa using h

theorem answerSetOrigin_quiet (l : Label) (s : State) : QuietAnswers s (answerSetOrigin l s) := by
  unfold answerSetOrigin
  split
  · unfold setOriginTo
    split
    · exact refuseWith_quiet s _
    split
    · exact refuseWith_quiet s _
    · rename_i p adv _ _ empty
      exact .of_keeps (okOr_served adv) rfl (origin_keeps (list_empty empty) p)
  · exact refuseWith_quiet s _

theorem answerConfigure_quiet (m : MachineId) (action : Nat) (p : ConfigureParams) (s : State) :
    QuietAnswers s (answerConfigure m action p s) := by
  unfold answerConfigure
  split
  · exact refuseWith_quiet s _
  split
  · exact refuseWith_quiet s _
  split
  · exact refuseWith_quiet s _
  split
  · exact refuseWith_quiet s _
  split
  · exact refuseWith_quiet s _
  · rename_i _ hp hu _
    obtain ⟨keeps, same, link⟩ := configured_keeps (by simpa using hp) (by simpa using hu)
    exact .of_keeps rfl link ⟨keeps, same⟩

/-- SET RECORDER on an empty list: a configured machine or none is designated, and the origin is 0. -/
theorem setRecorder_keeps {s : State} {m : Option MachineId} (hm : recorderConfigured s m = true) (empty : s.store.events = []) :
    Keeps s (zeroOrigin { s with recorder := m }) ∧ SameList s (zeroOrigin { s with recorder := m }) := by
  refine ⟨⟨fun h => h, fun ⟨_, _, ⟨_, _, counter⟩, _⟩ => .of_empty (fun n hn => ?_) empty counter, fun h => h,
    .of_fewer fun _ => .inl rfl⟩, rfl, rfl⟩
  have hn : m = some n := hn
  subst hn
  exact hm

theorem answerSetRecorder_quiet (m : Option MachineId) (s : State) : QuietAnswers s (answerSetRecorder m s) := by
  unfold answerSetRecorder
  split
  · exact refuseWith_quiet s _
  split
  · exact refuseWith_quiet s _
  split
  · exact refuseWith_quiet s _
  · rename_i hm _ empty
    exact .of_keeps rfl rfl (setRecorder_keeps (by simpa using hm) (list_empty empty))

theorem answerSetStandard_quiet (value t : Nat) (s : State) : QuietAnswers s (answerSetStandard value t s) := by
  unfold answerSetStandard
  split
  · exact refuseWith_quiet s _
  split
  · exact refuseWith_quiet s _
  split
  · exact refuseWith_quiet s _
  · rename_i std _ _ empty
    obtain ⟨keeps, same, link⟩ := setStandard_keeps std t (list_empty empty)
    exact .of_keeps rfl link ⟨keeps, same⟩

theorem MachineRec.transported_step (x : MachineRec) (v : Int) : RecStep x (x.transported v) :=
  .to_free rfl rfl rfl (Nat.zero_le _) (Nat.zero_le _) (.inl rfl) rfl (.inl rfl)

theorem transport_quiet (s : State) (m : MachineId) {r : DeckRequest} (hr : r.isMotion = true) (v : Int) (isStop : Bool)
    {result : Result} (served : result.served = true) (data : List Byte) :
    QuietAnswers s (transport s m r v isStop result data) := by
  unfold transport
  split
  · exact refuseWith_quiet s _
  split
  · exact refuseWith_quiet s _
  · rename_i t ht
    exact .of_block served (.of_machines ((placeMotion_step hr ht).trans (changeMachine_step (MachineRec.transported_step _ v))))

theorem answerShuttle_quiet (m : MachineId) (v : Int) (s : State) : QuietAnswers s (answerShuttle m v s) := by
  unfold answerShuttle
  dsimp only
  split
  · exact transport_quiet s m rfl _ _ rfl _
  · exact transport_quiet s m rfl _ _ rfl _

theorem transportRefusal_released {s : State} {m : MachineId} (h : transportRefusal s m false = none) : s.stopAsserted = false := by
  unfold transportRefusal at h
  split at h
  · simp at h
  split at h
  · simp at h
  split at h
  · simp at h
  split at h
  · simp at h
  · simpa using h

theorem answerLocate_quiet (m : MachineId) (l : Label) (s : State) : QuietAnswers s (answerLocate m l s) := by
  unfold answerLocate
  split
  · unfold locateTo
    split
    · exact refuseWith_quiet s _
    · rename_i hr
      split
      · exact refuseWith_quiet s _
      · rename_i t ht
        exact .of_block (acceptedOr_served _) ((startLocate_frame ht).step_of_released (transportRefusal_released hr))
  · exact refuseWith_quiet s _

theorem answerUnfollow_quiet (m : MachineId) (s : State) : QuietAnswers s (answerUnfollow m s) := by
  unfold answerUnfollow
  split
  · exact refuseWith_quiet s _
  split
  · exact refuseWith_quiet s _
  split
  · exact .of_block rfl (.of_machines (cancelFollow_step s m))
  · exact unchanged_quiet s _ _

theorem mark_quiet (s : State) (m : MachineId) {store : MachineRec → Nat → MachineRec}
    (h : ∀ p, RecStep (s.machine m) (store (s.machine m) p)) : QuietAnswers s (mark s m store) := by
  unfold mark
  split
  · exact refuseWith_quiet s _
  split
  · exact .of_block rfl (.of_machines (.setMachine (h _)))
  · exact refuseWith_quiet s _

theorem answerClearMarks_quiet (m : MachineId) (s : State) : QuietAnswers s (answerClearMarks m s) := by
  unfold answerClearMarks
  split
  · exact .of_block rfl (.of_machines (.setMachine (.of_same rfl rfl (.inl (Nat.le_refl _)) rfl rfl rfl rfl rfl)))
  · exact refuseWith_quiet s _

/-! ### The lookups -/

theorem answerReadEvent_quiet (handle : Nat) (s : State) : QuietAnswers s (answerReadEvent handle s) := by
  unfold answerReadEvent
  split
  · exact unchanged_quiet s _ _
  · exact refuseWith_quiet s _

theorem answerReadOrdinal_quiet (n : Nat) (s : State) : QuietAnswers s (answerReadOrdinal n s) := by
  unfold answerReadOrdinal
  split
  · exact unchanged_quiet s _ _
  · exact refuseWith_quiet s _

theorem answerNext_quiet (handle : Nat) (s : State) : QuietAnswers s (answerNext handle s) := by
  unfold answerNext
  split
  · exact unchanged_quiet s _ _
  split
  · exact unchanged_quiet s _ _
  · exact refuseWith_quiet s _

theorem answerPrevious_quiet (handle : Nat) (s : State) : QuietAnswers s (answerPrevious handle s) := by
  unfold answerPrevious
  split
  · exact unchanged_quiet s _ _
  split
  · exact unchanged_quiet s _ _
  · exact refuseWith_quiet s _

theorem lookupAt_quiet (s : State) (l : Label) (track : Nat) (data : Track → Nat → List Byte) :
    QuietAnswers s (lookupAt s l track data) := by
  unfold lookupAt
  split
  · exact refuseWith_quiet s _
  split
  · exact unchanged_quiet s _ _
  · exact refuseWith_quiet s _

theorem answerReadEffects_quiet (line : Nat) (s : State) : QuietAnswers s (answerReadEffects line s) := by
  unfold answerReadEffects
  split
  · exact unchanged_quiet s _ _
  split
  · exact unchanged_quiet s _ _
  · exact refuseWith_quiet s _

theorem answerReadCueLine_quiet (line : Nat) (s : State) : QuietAnswers s (answerReadCueLine line s) := by
  unfold answerReadCueLine
  split
  · exact unchanged_quiet s _ _
  · exact refuseWith_quiet s _

/-! ### The run's requests -/

theorem startRun_step (s : State) (mode : RunMode) (scope : Scope) : BlockStep s (startRun s mode scope) := by
  refine BlockStep.trans (.updateRun ?_ ?_ ?_) (takeEvent_step _ _)
  · exact fun _ => Nat.zero_le _
  · exact id
  · exact id

theorem answerRun_quiet (mode : Nat) (scope : ScopeBytes) (s : State) : QuietAnswers s (answerRun mode scope s) := by
  unfold answerRun
  split
  · exact refuseWith_quiet s _
  split
  · exact refuseWith_quiet s _
  split
  · exact refuseWith_quiet s _
  · exact .of_block (acceptedOr_served _) (startRun_step s _ _)

theorem answerHold_quiet (s : State) : QuietAnswers s (answerHold s) := by
  unfold answerHold
  split
  · exact refuseWith_quiet s _
  · exact unchanged_quiet s _ _
  all_goals exact .of_block rfl (.updateRun id id id)

theorem answerAbort_quiet (s : State) : QuietAnswers s (answerAbort s) := by
  unfold answerAbort
  split
  · exact refuseWith_quiet s _
  · exact .of_block rfl (holdRun_step s _ _)

theorem answerResumeRetry_quiet (s : State) : QuietAnswers s (answerResumeRetry s) := by
  unfold answerResumeRetry
  split
  · exact refuseWith_quiet s _
  split
  · exact .of_block rfl (takeEvent_step s _)
  · exact refuseWith_quiet s _

theorem skipCurrent_step (s : State) : BlockStep s (skipCurrent s) := by
  unfold skipCurrent
  split
  · exact .trans (.updateRun id id id) (advanceInRange_step _ _)
  · exact .updateRun id id id

theorem answerResumeSkip_quiet (s : State) : QuietAnswers s (answerResumeSkip s) := by
  unfold answerResumeSkip
  split
  · exact refuseWith_quiet s _
  · exact .of_block rfl ((skipCurrent_step s).trans (takeEvent_step _ _))

theorem answerResetRun_quiet (s : State) : QuietAnswers s (answerResetRun s) := by
  unfold answerResetRun
  split
  · exact refuseWith_quiet s _
  · refine .of_block rfl (BlockStep.trans (.updateRun id id id) (BlockStep.trans (.updateRun ?_ ?_ ?_) (.raiseNotice _ _)))
    · exact id
    · exact id
    · exact fun _ => rfl

theorem answerSetRunParameters_quiet (a b c d : Option Nat) (s : State) : QuietAnswers s (answerSetRunParameters a b c d s) := by
  unfold answerSetRunParameters
  dsimp only
  split
  · exact .of_keeps rfl rfl ⟨.of_outer rfl rfl rfl id id id, rfl, rfl⟩
  · exact refuseWith_quiet s _

/-! ### The outputs -/

theorem answerSelect_quiet (value : Nat) (s : State) : QuietAnswers s (answerSelect value s) := by
  unfold answerSelect
  split
  · exact .of_block rfl (.updateEffects s _)
  · exact refuseWith_quiet s _

/-- A line changed leaves the others. -/
theorem setCueLine_step {s : State} {g : CueLineId} {l : CueLine} (h : (s.cueLine g).atRest → l.atRest) :
    BlockStep s (setCueLine s g l) := by
  refine .updateLines rfl (fun k hk => ?_)
  by_cases hg : k = g
  · subst hg; simpa using h hk
  · rw [Bank.get_set_other _ _ hg]; exact hk

theorem answerSetCueLine_quiet (line polarity : Nat) (s : State) : QuietAnswers s (answerSetCueLine line polarity s) := by
  unfold answerSetCueLine
  split
  · exact .of_block rfl (setCueLine_step id)
  · exact refuseWith_quiet s _
  · exact refuseWith_quiet s _

theorem answerFire_quiet (line width : Nat) (s : State) : QuietAnswers s (answerFire line width s) := by
  unfold answerFire
  split
  · exact refuseWith_quiet s _
  split
  · exact refuseWith_quiet s _
  split
  · exact refuseWith_quiet s _
  · rename_i _ _ _ _ released
    refine .of_block rfl (BlockFrame.step_of_released ?_ (by simpa using released))
    exact { BlockFrame.refl s with frame := rfl, link := rfl, notices := .of_console rfl }

end Sys2Proof.Machine
end

section
/-! SUPPORT. The list under a change (R26 to R36, R46 to R54): where a record that fits its day lies, what a ripple moves and
what the overlap test has excluded, and so that every change leaves the list sound. -/

namespace Sys2Proof.Machine

/-! ### Where a record lies (R13, R26, R33) -/

theorem LabelMode.day_pos (m : LabelMode) : 0 < m.day := by cases m <;> decide

theorem dayRec_pos (s : State) : 0 < dayRec s := LabelMode.day_pos _

theorem wrap_cast {day : Nat} (h : 0 < day) (x : Int) : (wrap day x : Int) = x % (day : Int) :=
  Int.toNat_of_nonneg (Int.emod_nonneg x (by omega))

theorem wrap_lt {day : Nat} (h : 0 < day) (x : Int) : wrap day x < day := by
  have := wrap_cast h x
  have := Int.emod_lt_of_pos x (b := (day : Int)) (by omega)
  omega

/-- A record as the list holds it: a field at least, a split below its duration, its end within the day (R27, R28). -/
def RecordFits (s : State) (r : Record) : Prop :=
  1 ≤ r.duration ∧ r.splitOf < (r.duration : Int) ∧ endOffset s r ≤ dayRec s

theorem Record.lead_bounds (r : Record) : r.lead ≤ 0 ∧ r.lead ≤ r.splitOf := by
  unfold Record.lead; omega

theorem Record.extent_cast (r : Record) : (r.extent : Int) = (r.duration : Int) - r.lead := by
  have := r.lead_bounds
  unfold Record.extent
  omega

/-- The fields from an event's start to a track's span. -/
def Record.trackLead (r : Record) : Track → Int
  | .v => -r.lead
  | _ => r.splitOf - r.lead

theorem Record.trackLead_bounds {s : State} {r : Record} (h : RecordFits s r) (t : Track) :
    0 ≤ r.trackLead t ∧ r.trackLead t < r.extent := by
  have bounds := r.lead_bounds
  obtain ⟨one, split, -⟩ := h
  rw [r.extent_cast]
  cases t <;> simp only [Record.trackLead] <;> omega

/-- The start in the day, as the record in moved by the lead. -/
theorem startOffset_eq (s : State) (r : Record) :
    (startOffset s r : Int) = ((r.recordIn : Int) + r.lead - s.timeline.origin) % (dayRec s : Int) := by
  unfold startOffset offsetOf offsetFrom Record.start
  rw [wrap_cast (dayRec_pos s), wrap_cast (dayRec_pos s), Int.emod_sub_emod]

theorem trackStart_eq (s : State) (r : Record) (t : Track) :
    (offsetOf s (r.trackStart (dayRec s) t) : Int)
      = ((r.recordIn : Int) + r.lead + r.trackLead t - s.timeline.origin) % (dayRec s : Int) := by
  unfold offsetOf offsetFrom
  rw [wrap_cast (dayRec_pos s)]
  cases t <;> simp only [Record.trackStart, Record.trackLead]
  case v => congr 1; omega
  all_goals
    rw [wrap_cast (dayRec_pos s), Int.emod_sub_emod]
    congr 1; omega

/-- A track's span of a record that fits starts its lead after the event's start, and ends at the end offset. -/
theorem spanOn_of_fits {s : State} {r : Record} (h : RecordFits s r) {t : Track} (ht : r.tracks.has t = true) :
    spanOn s r t = some (startOffset s r + (r.trackLead t).toNat, endOffset s r) := by
  obtain ⟨lo, hi⟩ := Record.trackLead_bounds h t
  have ends := h.2.2
  have start := startOffset_eq s r
  have pos := dayRec_pos s
  unfold spanOn
  rw [if_pos ht]
  congr 2
  have track := trackStart_eq s r t
  have reached : ((r.recordIn : Int) + r.lead + r.trackLead t - s.timeline.origin) % (dayRec s : Int)
      = startOffset s r + r.trackLead t := by
    have moved : ((r.recordIn : Int) + r.lead + r.trackLead t - s.timeline.origin)
        = ((r.recordIn : Int) + r.lead - s.timeline.origin) + r.trackLead t := by omega
    rw [moved, ← Int.emod_add_emod, ← start]
    unfold endOffset at ends
    exact Int.emod_eq_of_lt (by omega) (by omega)
  omega

theorem spanOn_none {s : State} {r : Record} {t : Track} (ht : r.tracks.has t = false) : spanOn s r t = none := by
  unfold spanOn; simp [ht]

theorem overlapOn_comm (s : State) (a b : Record) (t : Track) : overlapOn s a b t = overlapOn s b a t := by
  unfold overlapOn
  cases spanOn s a t <;> cases spanOn s b t <;> simp [intervalsMeet, Nat.max_comm, Nat.min_comm]

/-- A record that ends before another starts overlaps it on no track. -/
theorem overlapOn_of_before {s : State} {a b : Record} (ha : RecordFits s a) (hb : RecordFits s b)
    (h : endOffset s a ≤ startOffset s b) (t : Track) : overlapOn s a b t = false := by
  unfold overlapOn
  cases hta : a.tracks.has t with
  | false => simp [spanOn_none hta]
  | true =>
    cases htb : b.tracks.has t with
    | false => simp [spanOn_of_fits ha hta, spanOn_none htb]
    | true =>
      simp only [spanOn_of_fits ha hta, spanOn_of_fits hb htb, intervalsMeet, decide_eq_false_iff_not]
      omega

/-! ### A record moved by a ripple (R54) -/

section shifted
variable {s : State} {k : Int} {r : Record}

theorem startOffset_shift (h : RecordFits s r) (lo : 0 ≤ (startOffset s r : Int) + k)
    (hi : (endOffset s r : Int) + k ≤ dayRec s) :
    (startOffset s (shiftRecord (dayRec s) k r) : Int) = startOffset s r + k := by
  have start := startOffset_eq s r
  have pos := dayRec_pos s
  have bounds := (Record.trackLead_bounds h .v)
  rw [startOffset_eq]
  have moved : ((shiftRecord (dayRec s) k r).recordIn : Int) = ((r.recordIn : Int) + k) % (dayRec s : Int) :=
    wrap_cast pos _
  have lead : (shiftRecord (dayRec s) k r).lead = r.lead := rfl
  rw [moved, lead]
  have split : (((r.recordIn : Int) + k) % (dayRec s : Int) + r.lead - s.timeline.origin) % dayRec s
      = (startOffset s r + k) % dayRec s := by
    have regroup : ((r.recordIn : Int) + k) % (dayRec s : Int) + r.lead - s.timeline.origin
        = ((r.recordIn : Int) + k) % (dayRec s : Int) + (r.lead - s.timeline.origin) := by omega
    rw [regroup, Int.emod_add_emod, start, Int.emod_add_emod]
    congr 1; omega
  rw [split]
  unfold endOffset at hi
  exact Int.emod_eq_of_lt lo (by omega)

theorem endOffset_shift (h : RecordFits s r) (lo : 0 ≤ (startOffset s r : Int) + k)
    (hi : (endOffset s r : Int) + k ≤ dayRec s) :
    (endOffset s (shiftRecord (dayRec s) k r) : Int) = endOffset s r + k := by
  have start := startOffset_shift h lo hi
  have extent : (shiftRecord (dayRec s) k r).extent = r.extent := rfl
  unfold endOffset
  rw [extent]
  omega

theorem shiftRecord_fits (h : RecordFits s r) (lo : 0 ≤ (startOffset s r : Int) + k)
    (hi : (endOffset s r : Int) + k ≤ dayRec s) : RecordFits s (shiftRecord (dayRec s) k r) := by
  have ends := endOffset_shift h lo hi
  exact ⟨h.1, h.2.1, by omega⟩

/-- Two records moved by the same shift overlap as they did. -/
theorem overlapOn_shift {r' : Record} (h : RecordFits s r) (h' : RecordFits s r') (lo : 0 ≤ (startOffset s r : Int) + k)
    (hi : (endOffset s r : Int) + k ≤ dayRec s) (lo' : 0 ≤ (startOffset s r' : Int) + k)
    (hi' : (endOffset s r' : Int) + k ≤ dayRec s) (t : Track) :
    overlapOn s (shiftRecord (dayRec s) k r) (shiftRecord (dayRec s) k r') t = overlapOn s r r' t := by
  have starts := startOffset_shift h lo hi
  have ends := endOffset_shift h lo hi
  have starts' := startOffset_shift h' lo' hi'
  have ends' := endOffset_shift h' lo' hi'
  have lead : (shiftRecord (dayRec s) k r).trackLead t = r.trackLead t := by cases t <;> rfl
  have lead' : (shiftRecord (dayRec s) k r').trackLead t = r'.trackLead t := by cases t <;> rfl
  have has : (shiftRecord (dayRec s) k r).tracks.has t = r.tracks.has t := rfl
  have has' : (shiftRecord (dayRec s) k r').tracks.has t = r'.tracks.has t := rfl
  unfold overlapOn
  cases hr : r.tracks.has t with
  | false => rw [spanOn_none (has.trans hr), spanOn_none hr]
  | true =>
    rw [spanOn_of_fits (shiftRecord_fits h lo hi) (has.trans hr), spanOn_of_fits h hr]
    cases hr' : r'.tracks.has t with
    | false => rw [spanOn_none (has'.trans hr'), spanOn_none hr']
    | true =>
      rw [spanOn_of_fits (shiftRecord_fits h' lo' hi') (has'.trans hr'), spanOn_of_fits h' hr', lead, lead']
      simp only [intervalsMeet, decide_eq_decide]
      omega

end shifted

/-! ### What the tests of a change have excluded (R27, R28, R52, R54) -/

theorem overlapTest_none {s : State} {changed : List Record} {l : List Event} (h : overlapTest s changed l = none) :
    ∀ e ∈ l, ∀ c ∈ changed, ∀ t, overlapOn s c e.record t = false := by
  induction l with
  | nil => simp
  | cons x xs ih =>
    unfold overlapTest at h
    split at h
    · simp at h
    · rename_i hx
      intro e he c hc t
      rcases List.mem_cons.mp he with rfl | hm
      · simp only [firstOverlap, List.find?_eq_none, List.any_eq_true, not_exists, not_and, Bool.not_eq_true] at hx
        exact hx t (by cases t <;> simp [Track.all]) c hc
      · exact ih h e hm c hc t

theorem roundShift_ge (std : Standard) (x : Int) : x ≤ roundShift std.colourPeriod x := by
  unfold roundShift
  cases std <;> simp only [Standard.colourPeriod] <;> split <;> omega

theorem rippleShift_ge (s : State) (moving : List Event) (x : Int) : x ≤ rippleShift s moving x := by
  unfold rippleShift
  split
  · exact roundShift_ge _ x
  · exact Int.le_refl x

/-- What the tests of R47 leave of a change. -/
structure Tested (s : State) (c : Change) : Prop where
  valid : ∀ r, c.result = some r → validity s r = none
  slot : c.target = none → ∃ h, lowestFree s = some h
  stays : ∀ e ∈ (rippleMoves s c).1, leavesDay s (rippleMoves s c).2 e = false
  apart : ∀ e ∈ s.store.events, some e.handle ≠ c.target.map Event.handle →
    (rippleMoves s c).1.any (fun m => m.handle == e.handle) = false →
      (∀ r, c.result = some r → ∀ t, overlapOn s r e.record t = false)
        ∧ ∀ m ∈ (rippleMoves s c).1, ∀ t, overlapOn s (shiftRecord (dayRec s) (rippleMoves s c).2 m.record) e.record t = false

theorem rippleTest_none {s : State} {moving : List Event} {k : Int} (h : rippleTest s moving k = none) :
    ∀ e ∈ moving, leavesDay s k e = false ∧ e.state = .opened := by
  unfold rippleTest at h
  split at h
  · simp at h
  split at h
  · simp at h
  split at h
  · simp at h
  · rename_i _ running _ performed _ leaves
    simp only [List.find?_eq_none, beq_iff_eq, Bool.not_eq_true] at *
    intro e he
    refine ⟨leaves e he, ?_⟩
    have := running e he
    have := performed e he
    cases hs : e.state <;> simp_all

theorem changeTests_none {s : State} {known : Bool} {c : Change} (h : changeTests s known c = none) : Tested s c := by
  unfold changeTests at h
  split at h
  · simp at h
  · rename_i hv
    split at h
    · simp at h
    · rename_i hslot
      split at h
      · simp at h
      · rename_i hripple
        have overlap := overlapTest_none h
        refine ⟨fun r hr => ?_, fun ht => ?_, fun e he => ?_, fun e he ht hm => ⟨fun r hr t => ?_, fun m hmem t => ?_⟩⟩
        · split at hv
          · simpa [hr] using hv
          · simp at hv
        · simp only [ht, Option.isNone_none, Bool.true_and] at hslot
          exact Option.ne_none_iff_exists'.mp (by simpa using hslot)
        · split at hripple
          · rename_i hnone
            rw [List.isEmpty_iff.mp hnone] at he
            simp at he
          · exact (rippleTest_none hripple e he).1
        · exact overlap e (by simp [he, ht, hm]) r (by simp [hr]) t
        · refine overlap e (by simp [he, ht, hm]) _ (List.mem_append_right _ (List.mem_map.mpr ⟨m, hmem, rfl⟩)) t

theorem fits_of_valid {s : State} {r : Record} (h : validity s r = none) : RecordFits s r := by
  unfold validity at h
  split at h
  · simp at h
  split at h
  · simp at h
  · rename_i hrange
    split at h
    · simp at h
    split at h
    · simp at h
    split at h
    · simp at h
    split at h
    · simp at h
    split at h
    · simp at h
    · rename_i hcontained
      have contained : endOffset s r ≤ dayRec s := by simpa [contained] using hcontained
      have range : rangeTest s r = true := by simpa using hrange
      simp only [rangeTest, Bool.and_eq_true] at range
      obtain ⟨⟨⟨⟨⟨⟨duration, -⟩, -⟩, -⟩, split⟩, -⟩, -⟩ := range
      simp only [within, Bool.and_eq_true, decide_eq_true_eq] at duration
      refine ⟨duration.1, ?_, contained⟩
      unfold Record.splitOf
      cases hs : r.split with
      | none => simp only [Option.getD_none]; omega
      | some x =>
        simp only [hs, Bool.and_eq_true, decide_eq_true_eq] at split
        exact split.2

/-! ### A list in any order -/

/-- The list's facts that do not depend on the order in which the events stand. -/
structure Exclusive (s : State) (counter : Nat) (l : List Event) : Prop where
  below : ∀ e ∈ l, e.handle < Config.slotCount
  handles : l.Pairwise (fun a b => a.handle ≠ b.handle)
  insertions : l.Pairwise (fun a b => a.insertion ≠ b.insertion)
  counted : ∀ e ∈ l, e.insertion < counter
  tracks : l.Pairwise (fun a b => ∀ t, overlapOn s a.record b.record t = false)
  records : ∀ e ∈ l, RecordFits s e.record

theorem ListSound.exclusive {s : State} (h : ListSound s) : Exclusive s s.store.counter s.store.events := by
  obtain ⟨-, ⟨below, handles⟩, ⟨order, counted, -⟩, tracks, records⟩ := h
  exact ⟨below, handles, order.imp fun h => h.2, counted, tracks, records⟩

theorem Exclusive.perm {s : State} {n : Nat} {l l' : List Event} (h : Exclusive s n l) (p : l'.Perm l) : Exclusive s n l' where
  below e he := h.below e (p.subset he)
  handles := (p.pairwise_iff fun {a b} (k : a.handle ≠ b.handle) => k.symm).mpr h.handles
  insertions := (p.pairwise_iff fun {a b} (k : a.insertion ≠ b.insertion) => k.symm).mpr h.insertions
  counted e he := h.counted e (p.subset he)
  tracks := (p.pairwise_iff fun {a b} (k : ∀ t, overlapOn s a.record b.record t = false) t => (overlapOn_comm s _ _ t).trans (k t)).mpr h.tracks
  records e he := h.records e (p.subset he)

/-- Handles are distinct and below 512, so the list holds no more than 512 events. -/
theorem Exclusive.length_le {s : State} {n : Nat} {l : List Event} (h : Exclusive s n l) : l.length ≤ Config.slotCount := by
  have nodup : (l.map Event.handle).Nodup := List.pairwise_map.mpr h.handles
  have within : ∀ k ∈ l.map Event.handle, k ∈ List.range Config.slotCount := by
    intro k hk
    obtain ⟨e, he, rfl⟩ := List.mem_map.mp hk
    exact List.mem_range.mpr (h.below e he)
  simpa only [List.length_map, List.length_range] using length_le_of_nodup nodup within

theorem Exclusive.mem_of_handle {s : State} {n : Nat} {l : List Event} (h : Exclusive s n l) {a b : Event} (ha : a ∈ l)
    (hb : b ∈ l) (hk : a.handle = b.handle) : a = b :=
  eq_of_pairwise_ne h.handles ha hb hk

/-- Written in its order, an exclusive list stands in strictly ascending keys. -/
theorem Exclusive.ordered {s : State} {n : Nat} {l : List Event} (h : Exclusive s n l) (o : Ordered s l) :
    l.Pairwise (fun a b => keyBefore s a b = true ∧ a.insertion ≠ b.insertion) := by
  refine (o.and h.insertions).imp fun ⟨hb, hi⟩ => ⟨?_, hi⟩
  rcases keyBefore_total s hi with k | k
  · exact k
  · rw [hb] at k; exact absurd k (by decide)

theorem listSound_of_exclusive {s : State} (hr : RecorderConfigured s) (h : Exclusive s s.store.counter s.store.events)
    (o : s.store.events.Pairwise (fun a b => keyBefore s a b = true ∧ a.insertion ≠ b.insertion))
    (hc : s.store.counter < Config.wordLimit) : ListSound s :=
  ⟨hr, ⟨h.below, h.handles⟩, ⟨o, h.counted, hc⟩, h.tracks, h.records⟩

/-! ### The survivors of a change -/

/-- Each moved event fits where the ripple moves it. -/
theorem Tested.moved_bounds {s : State} {c : Change} (ht : Tested s c) {e : Event} (he : e ∈ (rippleMoves s c).1) :
    0 ≤ (startOffset s e.record : Int) + (rippleMoves s c).2 ∧ (endOffset s e.record : Int) + (rippleMoves s c).2 ≤ dayRec s := by
  have stays := ht.stays e he
  simp only [leavesDay, Bool.or_eq_false_iff, decide_eq_false_iff_not] at stays
  omega

theorem mem_rippleMoves {s : State} {c : Change} {e : Event} (h : e ∈ (rippleMoves s c).1) :
    e ∈ s.store.events ∧ some e.handle ≠ c.target.map Event.handle
      ∧ ∃ rp, c.ripple = some rp ∧ rp.point ≤ startOffset s e.record ∧ rp.shift ≤ (rippleMoves s c).2 := by
  unfold rippleMoves at *
  split at h
  · simp at h
  · rename_i rp hrp
    split at h
    · simp at h
    · rename_i hz
      obtain ⟨mem, other, point⟩ := mem_movingSet h
      refine ⟨mem, other, rp, hrp, point, ?_⟩
      rw [if_neg hz]
      exact rippleShift_ge s _ _

theorem movedEvent_handle (s : State) (c : Change) (e : Event) : (movedEvent s c e).handle = e.handle := by
  unfold movedEvent; split <;> rfl

theorem movedEvent_insertion (s : State) (c : Change) (e : Event) : (movedEvent s c e).insertion = e.insertion := by
  unfold movedEvent; split <;> rfl

/-- An event listed is moved or stands. -/
theorem movedEvent_cases {s : State} {c : Change} (hx : Exclusive s s.store.counter s.store.events) {e : Event}
    (he : e ∈ s.store.events) :
    (e ∈ (rippleMoves s c).1 ∧ (movedEvent s c e).record = shiftRecord (dayRec s) (rippleMoves s c).2 e.record)
      ∨ ((rippleMoves s c).1.any (fun m => m.handle == e.handle) = false ∧ movedEvent s c e = e) := by
  unfold movedEvent
  split
  · rename_i hm
    obtain ⟨m, hmem, hh⟩ := List.any_eq_true.mp hm
    have same := hx.mem_of_handle (mem_rippleMoves hmem).1 he (by simpa using hh)
    exact .inl ⟨same ▸ hmem, rfl⟩
  · rename_i hm
    exact .inr ⟨by simpa using hm, rfl⟩

theorem survivors_eq (s : State) (c : Change) : survivors s c = (bystanders s c).map (movedEvent s c) := rfl

/-- The events that a change keeps stay exclusive when the ripple has moved its share. -/
theorem survivors_exclusive {s : State} {c : Change} (hx : Exclusive s s.store.counter s.store.events) (ht : Tested s c) :
    Exclusive s s.store.counter (survivors s c) := by
  rw [survivors_eq]
  have mem {e : Event} (he : e ∈ bystanders s c) : e ∈ s.store.events ∧ some e.handle ≠ c.target.map Event.handle := by
    simpa [bystanders] using he
  have sub : (bystanders s c).Sublist s.store.events := List.filter_sublist
  have listed {P : Event → Prop} (h : ∀ e ∈ bystanders s c, P (movedEvent s c e)) :
      ∀ e ∈ (bystanders s c).map (movedEvent s c), P e := by
    intro e he
    obtain ⟨k, hk, rfl⟩ := List.mem_map.mp he
    exact h k hk
  refine ⟨listed fun e he => ?_, List.pairwise_map.mpr ?_, List.pairwise_map.mpr ?_, listed fun e he => ?_,
    List.pairwise_map.mpr ?_, listed fun e he => ?_⟩
  · rw [movedEvent_handle]; exact hx.below e (mem he).1
  · simp only [movedEvent_handle]; exact hx.handles.sublist sub
  · simp only [movedEvent_insertion]; exact hx.insertions.sublist sub
  · rw [movedEvent_insertion]; exact hx.counted e (mem he).1
  · refine (hx.tracks.sublist sub).imp_of_mem fun {a b} ha hb apart t => ?_
    have fa := hx.records a (mem ha).1
    have fb := hx.records b (mem hb).1
    rcases movedEvent_cases (c := c) hx (mem ha).1 with ⟨ma, ra⟩ | ⟨na, ra⟩ <;>
      rcases movedEvent_cases (c := c) hx (mem hb).1 with ⟨mb, rb⟩ | ⟨nb, rb⟩ <;> rw [ra, rb]
    · obtain ⟨la, ua⟩ := ht.moved_bounds ma
      obtain ⟨lb, ub⟩ := ht.moved_bounds mb
      rw [overlapOn_shift fa fb la ua lb ub]
      exact apart t
    · exact (ht.apart b (mem hb).1 (mem hb).2 nb).2 a ma t
    · rw [overlapOn_comm]
      exact (ht.apart a (mem ha).1 (mem ha).2 na).2 b mb t
    · exact apart t
  · have fe := hx.records e (mem he).1
    rcases movedEvent_cases (c := c) hx (mem he).1 with ⟨me, re⟩ | ⟨-, re⟩ <;> rw [re]
    · obtain ⟨le, ue⟩ := ht.moved_bounds me
      exact shiftRecord_fits fe le ue
    · exact fe

/-- A changed or new record that ends where the ripple begins, at the latest, overlaps no survivor (R53, R58, R62). -/
theorem result_apart {s : State} {c : Change} {r : Record} (hx : Exclusive s s.store.counter s.store.events) (ht : Tested s c)
    (hr : c.result = some r) (room : ∀ rp, c.ripple = some rp → (endOffset s r : Int) ≤ rp.point + rp.shift) :
    ∀ e ∈ survivors s c, ∀ t, overlapOn s r e.record t = false := by
  intro e he t
  rw [survivors_eq] at he
  obtain ⟨k, hk, rfl⟩ := List.mem_map.mp he
  obtain ⟨mem, other⟩ : k ∈ s.store.events ∧ some k.handle ≠ c.target.map Event.handle := by simpa [bystanders] using hk
  rcases movedEvent_cases (c := c) hx mem with ⟨mk, rk⟩ | ⟨nk, rk⟩ <;> rw [rk]
  · obtain ⟨lo, hi⟩ := ht.moved_bounds mk
    have fk := hx.records k mem
    obtain ⟨-, -, rp, hrp, point, shift⟩ := mem_rippleMoves mk
    have := room rp hrp
    have := startOffset_shift fk lo hi
    exact overlapOn_of_before (fits_of_valid (ht.valid r hr)) (shiftRecord_fits fk lo hi) (by omega) t
  · exact (ht.apart k mem other nk).1 r hr t

/-! ### Renumbering (R36) -/

theorem mem_numberFrom {k : Nat} {l : List Event} {e : Event} (h : e ∈ numberFrom k l) :
    k ≤ e.insertion ∧ e.insertion < k + l.length ∧ ∃ x ∈ l, e = { x with insertion := e.insertion } := by
  induction l generalizing k with
  | nil => simp [numberFrom] at h
  | cons x xs ih =>
    simp only [numberFrom, List.mem_cons] at h
    rcases h with rfl | h
    · exact ⟨(Nat.le_refl _), by simp, x, by simp, rfl⟩
    · obtain ⟨lo, hi, y, hy, he⟩ := ih h
      exact ⟨by omega, by simp only [List.length_cons]; omega, y, by simp [hy], he⟩

/-- Numbered by place, a list in ascending keys stands in ascending keys. -/
theorem numberFrom_ordered {s : State} (k : Nat) {l : List Event}
    (h : l.Pairwise (fun a b => keyBefore s a b = true ∧ a.insertion ≠ b.insertion)) :
    (numberFrom k l).Pairwise (fun a b => keyBefore s a b = true ∧ a.insertion ≠ b.insertion) := by
  induction l generalizing k with
  | nil => exact .nil
  | cons x xs ih =>
    obtain ⟨hx, hxs⟩ := List.pairwise_cons.mp h
    refine List.pairwise_cons.mpr ⟨fun e he => ?_, ih (k + 1) hxs⟩
    obtain ⟨lo, -, y, hy, heq⟩ := mem_numberFrom he
    have before := (keyBefore_iff s x y).mp (hx y hy).1
    have record : e.record = y.record := by rw [heq]
    refine ⟨(keyBefore_iff s _ _).mpr ?_, by dsimp only; omega⟩
    rw [record]
    dsimp only
    omega

theorem numberFrom_exclusive {s : State} {n : Nat} {l : List Event} (h : Exclusive s n l) :
    Exclusive s l.length (numberFrom 0 l) where
  below e he := by
    obtain ⟨-, -, x, hx, heq⟩ := mem_numberFrom he
    rw [heq]; exact h.below x hx
  handles := by
    have := List.pairwise_map.mpr h.handles
    rw [← numberFrom_handles 0] at this
    exact List.pairwise_map.mp this
  insertions := by
    have : ((numberFrom 0 l).map Event.insertion).Pairwise (· ≠ ·) := by
      rw [numberFrom_insertions]; exact List.nodup_range'
    exact List.pairwise_map.mp this
  counted e he := by
    obtain ⟨-, hi, -⟩ := mem_numberFrom he
    omega
  tracks := by
    have : (l.map Event.record).Pairwise (fun a b => ∀ t, overlapOn s a b t = false) := List.pairwise_map.mpr h.tracks
    rw [← numberFrom_records 0] at this
    exact List.pairwise_map.mp this
  records e he := by
    obtain ⟨-, -, x, hx, heq⟩ := mem_numberFrom he
    rw [heq]; exact h.records x hx

end Sys2Proof.Machine
end

section
/-! SUPPORT. The write of a change that passed its tests: the list it leaves is sound (R35, R36, R46, R59, R67). -/

namespace Sys2Proof.Machine

theorem Exclusive.cons {s : State} {n : Nat} {l : List Event} {x : Event} (h : Exclusive s n l)
    (below : x.handle < Config.slotCount) (counted : x.insertion < n) (fits : RecordFits s x.record)
    (other : ∀ e ∈ l, x.handle ≠ e.handle ∧ x.insertion ≠ e.insertion)
    (apart : ∀ e ∈ l, ∀ t, overlapOn s x.record e.record t = false) : Exclusive s n (x :: l) where
  below := List.forall_mem_cons.mpr ⟨below, h.below⟩
  handles := List.pairwise_cons.mpr ⟨fun e he => (other e he).1, h.handles⟩
  insertions := List.pairwise_cons.mpr ⟨fun e he => (other e he).2, h.insertions⟩
  counted := List.forall_mem_cons.mpr ⟨counted, h.counted⟩
  tracks := List.pairwise_cons.mpr ⟨apart, h.tracks⟩
  records := List.forall_mem_cons.mpr ⟨fits, h.records⟩

theorem Exclusive.mono {s : State} {n k : Nat} {l : List Event} (h : Exclusive s n l) (hk : n ≤ k) : Exclusive s k l where
  below := h.below
  handles := h.handles
  insertions := h.insertions
  counted e he := Nat.lt_of_lt_of_le (h.counted e he) hk
  tracks := h.tracks
  records := h.records

theorem Exclusive.of_sameDomain {s t : State} {n : Nat} {l : List Event} (hd : SameDomain s t) (h : Exclusive s n l) :
    Exclusive t n l where
  below := h.below
  handles := h.handles
  insertions := h.insertions
  counted := h.counted
  tracks := by simp only [hd.overlapOn]; exact h.tracks
  records e he := by
    obtain ⟨one, split, ends⟩ := h.records e he
    exact ⟨one, split, by rw [hd.endOffset, hd.1]; exact ends⟩

/-- The list and the cursor alone are new. -/
def ListWritten (s t : State) : Prop := t = { s with store := t.store, run := { s.run with cursor := t.run.cursor } }

theorem ListWritten.trans {s t u : State} (h : ListWritten s t) (k : ListWritten t u) : ListWritten s u := by
  unfold ListWritten at *
  rw [k, h]

section written
variable {s t : State} (h : ListWritten s t)
include h

theorem ListWritten.machine (m : MachineId) : t.machine m = s.machine m := by rw [h]; rfl

theorem ListWritten.port (m : MachineId) : t.port m = s.port m := by rw [h]; rfl

theorem ListWritten.sameDomain : SameDomain s t :=
  sameDomain_of_params (by rw [h]) (fun m => by rw [h.machine]) (by rw [h]) (by rw [h])

theorem ListWritten.safe (k : Safe s) : Safe t := by
  have done : t.run.eventsDone = s.run.eventsDone := by rw [h]
  have cueing : t.run.cueingCount = s.run.cueingCount := by rw [h]
  have timeline : t.timeline = s.timeline := by rw [h]
  have waiting : t.waiting = s.waiting := by rw [h]
  have console : t.console = s.console := by rw [h]
  unfold Safe PortQueuesFit ConsoleQueuesFit CountsFit ModesAllowed WaitsOnce at *
  simp only [h.machine, h.port, done, cueing, timeline, waiting, console]
  exact k

theorem ListWritten.rests (k : StopRests s) : StopRests t := by
  have phase : t.run.phase = s.run.phase := by rw [h]
  have cues : t.cues = s.cues := by rw [h]
  unfold StopRests State.stopAsserted State.cueLine at *
  simp only [h.machine, phase, cues]
  exact k

theorem ListWritten.leaders (k : LeadersEnd s) : LeadersEnd t := k.of_fewer fun m => .inl (by rw [h.machine])

/-- What is written is sound where it is exclusive and stands in its order. -/
theorem ListWritten.sound (hr : RecorderConfigured s) (hx : Exclusive s t.store.counter t.store.events)
    (ho : Ordered s t.store.events) (hc : t.store.counter < Config.wordLimit) : ListSound t := by
  have domain := h.sameDomain
  refine listSound_of_exclusive (fun m hm => ?_) (hx.of_sameDomain domain) ?_ hc
  · rw [h.machine]; exact hr m (by rw [h] at hm; exact hm)
  · simp only [domain.keyBefore]
    exact hx.ordered ho

end written

/-- A list order is as exclusive as what it orders. -/
theorem Exclusive.listOrder {s : State} {n : Nat} {l : List Event} (h : Exclusive s n l) : Exclusive s n (listOrder s l) :=
  h.perm (listOrder_perm s l)

theorem writeEvents_written (s : State) (l : List Event) : ListWritten s (writeEvents s l) := rfl

theorem writeEvents_sound {s : State} {l : List Event} (h : ListSound s) (hx : Exclusive s s.store.counter l) :
    ListSound (writeEvents s l) :=
  (writeEvents_written s l).sound h.1 hx.listOrder (listOrder_ordered s l) h.2.2.1.2.2

theorem whenEmptied_written (s : State) : ListWritten s (whenEmptied s) := by
  unfold whenEmptied
  split <;> rfl

theorem whenEmptied_sound {s : State} (h : ListSound s) : ListSound (whenEmptied s) := by
  have written := whenEmptied_written s
  unfold whenEmptied at *
  split
  · rename_i hempty
    rw [if_pos hempty] at written
    have none : s.store.events = [] := List.isEmpty_iff.mp hempty
    have exclusive := h.exclusive
    refine written.sound h.1 ?_ ?_ (Nat.two_pow_pos 32) <;> dsimp only <;> rw [none]
    · exact ⟨by simp, .nil, .nil, by simp, .nil, by simp⟩
    · exact .nil
  · exact h

theorem advanceCounter_written (s : State) : ListWritten s (advanceCounter s) := by
  unfold advanceCounter
  split <;> rfl

/-- The counter after an ADD lies above every insertion number, renumbered or not (R35, R36). -/
theorem advanceCounter_sound {s : State} (hr : RecorderConfigured s) (hx : Exclusive s (s.store.counter + 1) s.store.events)
    (ho : Ordered s s.store.events) : ListSound (advanceCounter s) := by
  have written := advanceCounter_written s
  unfold advanceCounter at *
  split
  · rename_i hroom
    rw [if_pos hroom] at written
    exact written.sound hr hx ho hroom
  · rename_i hfull
    rw [if_neg hfull] at written
    have length := hx.length_le
    have order := numberFrom_ordered (s := s) 0 (hx.ordered ho)
    refine written.sound hr (numberFrom_exclusive hx) (order.imp fun h => keyBefore_asymm s h.1) ?_
    dsimp only [renumber]
    simp only [Config.slotCount, Config.wordLimit] at *
    omega

/-! ### The new or rewritten event -/

theorem mem_survivors {s : State} {c : Change} {e : Event} (h : e ∈ survivors s c) :
    ∃ k ∈ s.store.events, some k.handle ≠ c.target.map Event.handle ∧ e.handle = k.handle ∧ e.insertion = k.insertion := by
  rw [survivors_eq] at h
  obtain ⟨k, hk, rfl⟩ := List.mem_map.mp h
  obtain ⟨mem, other⟩ : k ∈ s.store.events ∧ some k.handle ≠ c.target.map Event.handle := by simpa [bystanders] using hk
  exact ⟨k, mem, other, movedEvent_handle s c k, movedEvent_insertion s c k⟩

theorem freeFrom_spec {events : List Event} {n k h : Nat} (hf : freeFrom events n k = some h) :
    h < k + n ∧ ∀ e ∈ events, e.handle ≠ h := by
  induction n generalizing k with
  | zero => simp [freeFrom] at hf
  | succ n ih =>
    unfold freeFrom at hf
    split at hf
    · obtain ⟨hb, hx⟩ := ih hf
      exact ⟨by omega, hx⟩
    · rename_i hfree
      cases hf
      exact ⟨by omega, by simpa using hfree⟩

theorem lowestFree_spec {s : State} {h : Nat} (hf : lowestFree s = some h) :
    h < Config.slotCount ∧ ∀ e ∈ s.store.events, e.handle ≠ h := by
  obtain ⟨below, free⟩ := freeFrom_spec hf
  exact ⟨by omega, free⟩

@[simp] theorem rewritten_handle (e : Event) (r : Record) : (rewritten e r).handle = e.handle := by
  unfold rewritten; split <;> rfl

@[simp] theorem rewritten_insertion (e : Event) (r : Record) : (rewritten e r).insertion = e.insertion := by
  unfold rewritten; split <;> rfl

@[simp] theorem rewritten_record (e : Event) (r : Record) : (rewritten e r).record = r := by
  unfold rewritten; split <;> rfl

/-- The change's own record ends where its ripple moves the next event, at the latest. -/
def LeavesRoom (s : State) (c : Change) : Prop :=
  ∀ r, c.result = some r → ∀ rp, c.ripple = some rp → (endOffset s r : Int) ≤ rp.point + rp.shift

section write
variable {s : State} {c : Change} (h : ListSound s) (ht : Tested s c) (room : LeavesRoom s c)
include h ht room

theorem newEvent_exclusive {r : Record} {k : Nat} (hr : c.result = some r) (hk : lowestFree s = some k) :
    Exclusive s (s.store.counter + 1) (newEvent s k r :: survivors s c) := by
  obtain ⟨below, free⟩ := lowestFree_spec hk
  have counted := h.exclusive.counted
  refine ((survivors_exclusive h.exclusive ht).mono (Nat.le_succ _)).cons below (Nat.lt_succ_self _)
    (fits_of_valid (ht.valid r hr)) (fun e he => ?_) (result_apart h.exclusive ht hr (room r hr))
  obtain ⟨x, hx, -, hh, hi⟩ := mem_survivors he
  exact ⟨hh ▸ (free x hx).symm, hi ▸ (Nat.ne_of_lt (counted x hx)).symm⟩

theorem rewritten_exclusive {r : Record} {e : Event} (hr : c.result = some r) (he : c.target = some e)
    (hm : e ∈ s.store.events) : Exclusive s s.store.counter (rewritten e r :: survivors s c) := by
  have exclusive := h.exclusive
  refine (survivors_exclusive exclusive ht).cons (by rw [rewritten_handle]; exact exclusive.below e hm)
    (by rw [rewritten_insertion]; exact exclusive.counted e hm)
    (by rw [rewritten_record]; exact fits_of_valid (ht.valid r hr)) (fun k hk => ?_)
    (by rw [rewritten_record]; exact result_apart exclusive ht hr (room r hr))
  obtain ⟨x, hx, other, hh, hi⟩ := mem_survivors hk
  rw [he] at other
  have handles : e.handle ≠ x.handle := fun heq => other (by simp [heq])
  have insertions : e.insertion ≠ x.insertion := fun heq =>
    handles (congrArg Event.handle (eq_of_pairwise_ne exclusive.insertions hm hx heq))
  simpa [hh, hi] using ⟨handles, insertions⟩

/-- The list that an accepted change leaves is sound. -/
theorem writeChange_sound (hm : ∀ e, c.target = some e → e ∈ s.store.events) : ListSound (writeChange s c) := by
  unfold writeChange
  split
  · rename_i r _ hr
    split
    · rename_i k hk
      exact advanceCounter_sound h.1
        ((newEvent_exclusive h ht room hr hk).listOrder.of_sameDomain (writeEvents_written s _).sameDomain)
        (listOrder_ordered s _)
    · exact h
  · exact whenEmptied_sound (writeEvents_sound h (survivors_exclusive h.exclusive ht))
  · rename_i e r he hr
    split
    · exact h
    · exact writeEvents_sound h (rewritten_exclusive h ht room hr he (hm e he))
  · exact h

end write

theorem writeChange_written (s : State) (c : Change) : ListWritten s (writeChange s c) := by
  unfold writeChange
  split
  · split
    · exact (writeEvents_written s _).trans (advanceCounter_written _)
    · rfl
  · exact (writeEvents_written s _).trans (whenEmptied_written _)
  · split
    · rfl
    · rfl
  · rfl

/-- An accepted change keeps the four invariants. -/
theorem writeChange_keeps {s : State} {c : Change} {known : Bool} (tests : changeTests s known c = none) (room : LeavesRoom s c)
    (hm : ∀ e, c.target = some e → e ∈ s.store.events) : Keeps s (writeChange s c) :=
  ⟨(writeChange_written s c).safe, fun h => writeChange_sound h (changeTests_none tests) room hm,
    (writeChange_written s c).rests, (writeChange_written s c).leaders⟩

theorem clearStore_keeps (s : State) : Keeps s (clearStore s) := by
  have written : ListWritten s (clearStore s) :=
    ListWritten.trans (t := { s with store := { s.store with events := [] } }) rfl (whenEmptied_written _)
  refine ⟨written.safe, fun h => ?_, written.rests, written.leaders⟩
  exact whenEmptied_sound (.of_empty h.1 rfl h.2.2.1.2.2)

end Sys2Proof.Machine
end

section
/-! SUPPORT. The owners that change the list (R46), that give a machine a leader (R105), and RESTART (R192): each answer keeps
the invariants. -/

namespace Sys2Proof.Machine

/-! ### Change requests -/

theorem Answers.of_written {s t : State} {result : Result} {data : List Byte} (served : result.served = true)
    (h : ListWritten s t) (k : Keeps s t) : Answers s ⟨t, result, data⟩ :=
  ⟨by rw [h], by rw [h], fun hr => by simp [served] at hr, k⟩

/-- A change is refused whole or written whole. -/
theorem changeTo_answers {s : State} {target : Option Event} {known : Bool} {r : Record} {ripple : Option RippleRequest}
    (advanced : Bool) (hm : ∀ e, target = some e → e ∈ s.store.events)
    (room : changeTests s known ⟨target, some (nudged s r), ripple⟩ = none → LeavesRoom s ⟨target, some (nudged s r), ripple⟩) :
    Answers s (changeTo s target known r ripple advanced) := by
  unfold changeTo
  rcases applyChange_cases s known ⟨target, some (nudged s r), ripple⟩ with ⟨e, -, ha⟩ | ⟨a, tests, ha, hw⟩ <;> rw [ha]
  · exact (refuse_quiet s e).toAnswers
  · refine .of_written (okOr_served _) ?_ ?_ <;> rw [hw]
    · exact writeChange_written s _
    · exact writeChange_keeps tests (room tests) hm

theorem leavesRoom_of_still {s : State} {target : Option Event} {r : Option Record} : LeavesRoom s ⟨target, r, none⟩ :=
  fun _ _ _ h => by simp at h

theorem changeEvent_answers {s : State} {e : Event} (hm : e ∈ s.store.events) (r : Record) (advanced : Bool) :
    Answers s (changeEvent s e r advanced) :=
  changeTo_answers advanced (fun _ h => Option.some.inj h ▸ hm) fun _ => leavesRoom_of_still

/-- The target of a request is an event of the list. -/
theorem withTarget_answers {s : State} {handle : Nat} {f : Event → Answer} (hf : ∀ e ∈ s.store.events, Answers s (f e)) :
    Answers s (withTarget s handle f) := by
  unfold withTarget
  split
  · exact (refuseWith_quiet s _).toAnswers
  · rename_i e he
    have mem : e ∈ s.store.events := List.mem_of_find?_eq_some he
    split
    · exact (refuseWith_quiet s _).toAnswers
    · exact hf e mem
    · exact hf e mem

/-- A nudge moves the sources alone. -/
theorem nudged_endOffset (s : State) (r : Record) : endOffset s (nudged s r) = endOffset s r := by
  unfold nudged
  split <;> rfl

theorem addRecord_answers (s : State) (mode : EditMode) (b : RecordBlock) (r : Record) (advanced : Bool) :
    Answers s (addRecord s mode b r advanced) := by
  refine changeTo_answers advanced (fun e h => by simp at h) fun _ => ?_
  rintro x hx rp hrp
  obtain rfl := Option.some.inj hx
  rw [nudged_endOffset]
  cases mode <;> simp only [addRipple, Option.some.injEq, reduceCtorEq] at hrp
  subst hrp
  simp [endOffset]

theorem addFrom_answers (s : State) (mode : EditMode) (b : RecordBlock) (p : Except Refused AddPositions) :
    Answers s (addFrom s mode b p) := by
  unfold addFrom
  split
  · split
    · exact addRecord_answers s mode b _ _
    · exact (refuse_quiet s _).toAnswers
  · exact (refuseWith_quiet s _).toAnswers

theorem answerAdd_answers (mode : EditMode) (b : RecordBlock) (s : State) : Answers s (answerAdd mode b s) := by
  unfold answerAdd
  split
  · split
    · exact (refuse_quiet s _).toAnswers
    · exact addFrom_answers s mode b _
  · exact addFrom_answers s mode b _

theorem answerTrimIn_answers (mode : EditMode) (handle : Nat) (delta : Int) (s : State) :
    Answers s (answerTrimIn mode handle delta s) := by
  unfold answerTrimIn
  split
  · exact withTarget_answers fun e he => changeEvent_answers he _ _
  · exact (refuseWith_quiet s _).toAnswers

/-- A TRIM OUT that passes the tests moves the end offset by δ. -/
theorem trimmedOut_endOffset {s : State} {r : Record} {delta : Int} (h : RecordFits s (trimmedOut r delta)) :
    (endOffset s (trimmedOut r delta) : Int) = endOffset s r + delta := by
  have one : 1 ≤ ((r.duration : Int) + delta).toNat := h.1
  have start : startOffset s (trimmedOut r delta) = startOffset s r := rfl
  have extent := (trimmedOut r delta).extent_cast
  have old := r.extent_cast
  have duration : ((trimmedOut r delta).duration : Int) = (r.duration : Int) + delta := by
    show (((r.duration : Int) + delta).toNat : Int) = _; omega
  have lead : (trimmedOut r delta).lead = r.lead := rfl
  unfold endOffset
  rw [start]
  omega

theorem nudged_fits {s : State} {r : Record} (h : RecordFits s (nudged s r)) : RecordFits s r := by
  unfold nudged at h
  split at h <;> exact h

theorem answerTrimOut_answers (mode : EditMode) (handle : Nat) (delta : Int) (s : State) :
    Answers s (answerTrimOut mode handle delta s) := by
  unfold answerTrimOut
  split
  · exact (refuseWith_quiet s _).toAnswers
  · refine withTarget_answers fun e he => changeTo_answers _ (fun _ h => Option.some.inj h ▸ he) fun tests => ?_
    rintro x hx rp hrp
    have fits := nudged_fits (fits_of_valid ((changeTests_none tests).valid _ rfl))
    obtain rfl := Option.some.inj hx
    rw [nudged_endOffset, trimmedOut_endOffset fits]
    cases mode <;> simp only [trimOutRipple, Option.some.injEq, reduceCtorEq] at hrp
    subst hrp
    exact Int.le_refl _

theorem answerSlip_answers (mode : EditMode) (handle source : Nat) (delta : Int) (s : State) :
    Answers s (answerSlip mode handle source delta s) := by
  unfold answerSlip
  split
  · refine withTarget_answers fun e he => ?_
    split
    · exact changeEvent_answers he _ _
    · exact (refuseWith_quiet s _).toAnswers
  · exact (refuseWith_quiet s _).toAnswers

theorem answerTrimTransition_answers (handle : Nat) (delta : Int) (s : State) :
    Answers s (answerTrimTransition handle delta s) := by
  refine withTarget_answers fun e he => ?_
  split
  · exact changeEvent_answers he _ _
  · exact (refuseWith_quiet s _).toAnswers

theorem answerSetSplit_answers (handle : Nat) (split : Int) (s : State) : Answers s (answerSetSplit handle split s) :=
  withTarget_answers fun _ he => changeEvent_answers he _ _

theorem answerMove_answers (mode : EditMode) (handle : Nat) (l : Label) (s : State) : Answers s (answerMove mode handle l s) := by
  unfold answerMove
  split
  · exact (refuseWith_quiet s _).toAnswers
  split
  · exact withTarget_answers fun e he => changeEvent_answers he _ _
  · exact (refuseWith_quiet s _).toAnswers

theorem deleteEvent_answers {s : State} (mode : EditMode) {e : Event} (he : e ∈ s.store.events) :
    Answers s (deleteEvent s mode e) := by
  unfold deleteEvent
  rcases applyChange_cases s true ⟨some e, none, deleteRipple s mode e⟩ with ⟨x, -, ha⟩ | ⟨a, tests, ha, hw⟩ <;> rw [ha]
  · exact (refuse_quiet s x).toAnswers
  · refine .of_written (okOr_served _) ?_ ?_ <;> rw [hw]
    · exact writeChange_written s _
    · exact writeChange_keeps tests (fun _ h => by simp at h) fun _ h => Option.some.inj h ▸ he

theorem answerDelete_answers (mode : EditMode) (handle : Nat) (s : State) : Answers s (answerDelete mode handle s) := by
  unfold answerDelete
  split
  · exact (refuseWith_quiet s _).toAnswers
  · exact withTarget_answers fun e he => deleteEvent_answers mode he

theorem clearStore_written (s : State) : ListWritten s (clearStore s) :=
  ListWritten.trans (t := { s with store := { s.store with events := [] } }) rfl (whenEmptied_written _)

theorem answerClearList_answers (s : State) : Answers s (answerClearList s) := by
  unfold answerClearList
  split
  · exact .of_written rfl (clearStore_written s) (clearStore_keeps s)
  · exact (refuseWith_quiet s _).toAnswers

/-! ### FOLLOW (R105, R106) -/

/-- A chain that ends within a number of steps ends within more. -/
theorem chainEnds_mono {s : State} {n k : Nat} (h : n ≤ k) : ∀ {m : MachineId}, chainEnds s n m = true → chainEnds s k m = true := by
  induction k generalizing n with
  | zero => obtain rfl := Nat.le_zero.mp h; exact id
  | succ k ih =>
    intro m hm
    unfold chainEnds
    split
    · rename_i l _ hl
      cases n with
      | zero => simp [chainEnds, MachineRec.following, hl] at hm
      | succ n =>
        simp only [chainEnds, hl] at hm
        exact ih (Nat.le_of_succ_le_succ h) hm
    · rfl
    · rfl

/-- The chain from a machine ends after so many steps and no fewer. -/
def ChainLength (s : State) (m : MachineId) (n : Nat) : Prop :=
  chainEnds s n m = true ∧ ∀ i, chainEnds s i m = true → n ≤ i

/-- On a chain of some length every shorter length occurs. -/
theorem ChainLength.shorter {s : State} {n : Nat} : ∀ {m : MachineId}, ChainLength s m n → ∀ j ≤ n, ∃ x, ChainLength s x j := by
  induction n with
  | zero => exact fun {m} h j hj => ⟨m, Nat.le_zero.mp hj ▸ h⟩
  | succ n ih =>
    intro m h j hj
    rcases Nat.lt_or_eq_of_le hj with hlt | rfl
    · have next : ∃ l off, (s.machine m).leader = .machine l off := by
        cases hl : (s.machine m).leader with
        | machine l off => exact ⟨l, off, rfl⟩
        | noLeader => exact absurd (h.2 0 (by simp [chainEnds, MachineRec.following, hl])) (by simp)
        | timeline => exact absurd (h.2 0 (by simp [chainEnds, MachineRec.following, hl])) (by simp)
      obtain ⟨l, off, hl⟩ := next
      refine ih (m := l) ⟨?_, fun i hi => ?_⟩ j (Nat.le_of_lt_succ hlt)
      · have := h.1
        simpa only [chainEnds, hl] using this
      · exact Nat.le_of_succ_le_succ (h.2 (i + 1) (by simpa only [chainEnds, hl] using hi))
    · exact ⟨m, h⟩

/-- On a chain of some length a machine for each shorter length: no two are the same. -/
theorem ChainLength.distinct {s : State} {m : MachineId} {n : Nat} (h : ChainLength s m n) (k : Nat) (hk : k ≤ n) :
    ∃ l : List MachineId, l.length = k + 1 ∧ l.Nodup ∧ ∀ x ∈ l, ∃ j, j ≤ k ∧ ChainLength s x j := by
  induction k with
  | zero =>
    obtain ⟨x, hx⟩ := h.shorter 0 hk
    exact ⟨[x], rfl, List.pairwise_singleton _ x, fun y hy => ⟨0, Nat.le_refl 0, List.mem_singleton.mp hy ▸ hx⟩⟩
  | succ k ih =>
    obtain ⟨l, length, nodup, each⟩ := ih (Nat.le_of_succ_le hk)
    obtain ⟨x, hx⟩ := h.shorter (k + 1) hk
    have fresh : x ∉ l := by
      intro mem
      obtain ⟨j, hj, short⟩ := each x mem
      exact absurd (hx.2 j short.1) (Nat.not_le_of_lt (Nat.lt_succ_of_le hj))
    refine ⟨x :: l, by rw [List.length_cons, length], List.nodup_cons.mpr ⟨fresh, nodup⟩, fun y hy => ?_⟩
    rcases List.mem_cons.mp hy with rfl | hy
    · exact ⟨k + 1, Nat.le_refl _, hx⟩
    · obtain ⟨j, hj, short⟩ := each y hy
      exact ⟨j, Nat.le_succ_of_le hj, short⟩

/-- Of eight machines no chain that ends takes eight steps: the machines of each length are distinct. -/
theorem ChainLength.lt_eight {s : State} {m : MachineId} {n : Nat} (h : ChainLength s m n) : n < 8 := by
  obtain ⟨l, length, nodup, -⟩ := h.distinct n (Nat.le_refl n)
  have bound : l.length ≤ Unit8.all.length := length_le_of_nodup nodup fun x _ => Unit8.mem_all x
  rw [length] at bound
  exact bound

/-- Chains that end at all end within eight steps. -/
theorem leadersEnd_of_ends {s : State} (h : ∀ m, ∃ n, chainEnds s n m = true) : LeadersEnd s := by
  intro m
  obtain ⟨n, ends⟩ := h m
  obtain ⟨k, length⟩ : ∃ k, ChainLength s m k := exists_least ends
  exact chainEnds_mono (Nat.le_of_lt length.lt_eight) length.1

section follow
variable {s : State} {f l : MachineId} {r : MachineRec} {off : Int}

/-- A walk that does not reach the follower is not changed by its new leader. -/
theorem chainEnds_setMachine_unreached {n : Nat} : ∀ {m : MachineId}, chainReaches s f n m = false → chainEnds s n m = true →
    chainEnds (s.setMachine f r) n m = true := by
  induction n with
  | zero =>
    intro m hr hm
    have other : m ≠ f := by simpa [chainReaches] using hr
    simpa [chainEnds, State.setMachine_machine_other s r other] using hm
  | succ n ih =>
    intro m hr hm
    simp only [chainReaches, Bool.or_eq_false_iff] at hr
    obtain ⟨other, rest⟩ := hr
    have other : m ≠ f := by simpa using other
    unfold chainEnds at hm ⊢
    rw [State.setMachine_machine_other s r other]
    split
    · rename_i x _ hx
      simp only [hx] at hm rest
      exact ih rest hm
    · rfl
    · rfl

/-- A follow whose leader's chain does not reach the follower closes no cycle. -/
theorem follow_leadersEnd (hr : r.leader = .machine l off) (free : chainReaches s f 8 l = false) (h : LeadersEnd s) :
    LeadersEnd (s.setMachine f r) := by
  have leader := chainEnds_setMachine_unreached (r := r) free (h l)
  refine leadersEnd_of_ends fun m => ⟨8 + 9, ?_⟩
  have reached : ∀ (n : Nat) (m : MachineId), chainEnds s n m = true → chainEnds (s.setMachine f r) (n + 9) m = true := by
    intro n
    induction n with
    | zero =>
      intro m hm
      by_cases hf : m = f
      · subst hf
        unfold chainEnds
        rw [State.setMachine_machine, hr]
        exact leader
      · refine chainEnds_mono (Nat.zero_le _) ?_
        simpa [chainEnds, State.setMachine_machine_other s r hf] using hm
    | succ n ih =>
      intro m hm
      by_cases hf : m = f
      · subst hf
        unfold chainEnds
        rw [State.setMachine_machine, hr]
        exact chainEnds_mono (by omega) leader
      · rw [Nat.succ_add]
        unfold chainEnds at hm ⊢
        rw [State.setMachine_machine_other s r hf]
        split
        · rename_i x _ hx
          rw [hx] at hm
          exact ih x hm
        · rfl
        · rfl
  exact reached 8 m (h m)

end follow

theorem follow_keeps {s : State} {f l : MachineId} {off : Int} (h : followRefusal s f l off = none) :
    Keeps s (changeMachine s f (fun x => x.follows l off)) ∧ SameList s (changeMachine s f (fun x => x.follows l off))
      ∧ OnlyNotices s (changeMachine s f (fun x => x.follows l off)) := by
  obtain ⟨free, released⟩ : chainReaches s f 8 l = false ∧ s.stopAsserted = false := by
    unfold followRefusal at h
    split at h
    · simp at h
    split at h
    · simp at h
    split at h
    · simp at h
    split at h
    · simp at h
    split at h
    · simp at h
    · rename_i hfree
      split at h
      · simp at h
      · split at h
        · simp at h
        · rename_i hs; exact ⟨by simpa using hfree, by simpa using hs⟩
  have written : Keeps s (s.setMachine f ((s.machine f).follows l off)) ∧ SameList s (s.setMachine f ((s.machine f).follows l off)) := by
    refine setMachine_keeps_of ?_ (fun k => k f) (fun _ hc => ⟨hc, .inl rfl⟩) (fun hs => by simp [released] at hs)
      (follow_leadersEnd rfl free)
    rintro ⟨a, b, c, -⟩
    exact ⟨a, ⟨b.1, Nat.zero_le _⟩, ⟨c.1, Nat.zero_le _⟩, fun x hx => by simp [MachineRec.follows] at hx⟩
  have link : OnlyNotices s (s.setMachine f ((s.machine f).follows l off)) := rfl
  unfold changeMachine
  split
  · exact ⟨written.1, written.2, link⟩
  · have raised := BlockStep.raiseNotice (s.setMachine f ((s.machine f).follows l off))
      (machineStateNotice (s.setMachine f ((s.machine f).follows l off)) f)
    exact ⟨written.1.trans raised.keeps, written.2.trans raised.sameList, link.trans raised.link⟩

theorem answerFollow_quiet (f l : MachineId) (off : Int) (s : State) : QuietAnswers s (answerFollow f l off s) := by
  unfold answerFollow
  split
  · exact refuseWith_quiet s _
  · rename_i h
    obtain ⟨keeps, same, link⟩ := follow_keeps h
    exact .of_keeps rfl link ⟨keeps, same⟩

/-! ### RESTART (R192) -/

theorem Port.restarted_step (p : Port) : PortStep p p.restarted :=
  ⟨fun _ => ⟨Nat.zero_le _, Nat.zero_le _⟩, fun _ => Port.lineHeld_of_offLine rfl, id⟩

theorem restartPorts_step (s : State) : MachineStep s (restartPorts s) where
  only := ⟨rfl, rfl⟩
  notices := .of_console rfl
  port m := by
    have mapped : (restartPorts s).port m = (s.port m).restarted := Bank.get_map ..
    rw [mapped]; exact Port.restarted_step _
  record _ := .refl _

theorem reopenRunning_step (s : State) : BlockStep s (reopenRunning s) where
  frame := rfl
  link := rfl
  notices := .of_console rfl
  list := reopenRunning_listOf s
  counter := rfl
  stop := rfl
  port _ := .refl _
  configured _ := rfl
  params _ := rfl
  counts _ := id
  leader _ := .inl rfl
  done := id
  cueing := id
  rests _ := ⟨id, fun _ => id, fun _ => id⟩

theorem restartStore_step (s : State) : BlockStep s (restartStore s) := by
  unfold restartStore
  exact (reopenRunning_step s).trans
    (.foldl (f := fun t (e : Event) => raiseNotice t (eventStateNotice e.leftIncomplete)) (fun t e => .raiseNotice t _) _ _)

theorem restartRunStart_step (s : State) : BlockStep s (restartRunStart s) :=
  (holdEditOff_step s).trans (.trans (.of_machines (releaseAll_step _))
    ((stopClock_step _).trans ((discardCues_step _).trans (quietLines_step _))))

theorem restartRunEnd_step (s : State) : BlockStep s (restartRunEnd s) :=
  .updateRun (f := fun r => { r.eventCleared with
    phase := .idle, current := none, inForce := none, cueingCount := 0, holdCause := none, holdPending := none })
    id (fun _ => Nat.zero_le _) fun _ => rfl

theorem restartMachine_step (s : State) (m : MachineId) : MachineStep s (restartMachine s m) := by
  unfold restartMachine
  split
  · exact (tryStop_step s m).trans (changeMachine_step (MachineRec.released_step _))
  · exact .refl s

theorem restartMachines_step (s : State) : MachineStep s (restartMachines s) := .foldl restartMachine_step _ s

theorem restartEffects_step (s : State) : BlockStep s (restartEffects s) := .updateEffects s _

theorem restartBlocks_step (s : State) : BlockStep s (restartBlocks s) :=
  BlockStep.trans (.of_machines (restartPorts_step s)) ((restartRunStart_step _).trans ((restartStore_step _).trans
    ((restartRunEnd_step _).trans (BlockStep.trans (.of_machines (restartMachines_step _)) (restartEffects_step _)))))

theorem restartConsole_keeps (s : State) : Keeps s (restartConsole s) ∧ SameList s (restartConsole s) :=
  console_keeps fun _ => ⟨Nat.zero_le _, Nat.zero_le _, Nat.zero_le _⟩

theorem restart_keeps (s : State) : Keeps s (answerRestart s).state ∧ SameList s (answerRestart s).state :=
  keeps_trans (restartBlocks_step s).keepsBoth (restartConsole_keeps _)

end Sys2Proof.Machine
end

section
/-! SUPPORT. What a request command does (R182, R183): nothing, or one request taken and answered once; and so what a command
of any kind keeps. -/

namespace Sys2Proof.Machine

/-- A request command other than RESTART: nothing is done, or the head is taken and answered once. -/
inductive ServedOnce (c : Instr) (s t : State) : Prop
  | idle (same : t = s)
  | answered (q : RequestMessage) (rest : List RequestMessage) (a : Answer) (head : s.console.inbound = q :: rest)
      (room : s.console.replies.length < Config.replyCapacity) (answers : Answers (dequeued s rest) a)
      (quiet : changesList c = false → SameList (dequeued s rest) a.state) (reply : t = replyTo q a)

section served
variable {c : Instr} {s t : State} {owner : Request → Option (State → Answer)} (h : (.next (serveHead s owner) : Step) = .next t)
include h

theorem ServedOnce.of_answers
    (ho : ∀ r serve, owner r = some serve → ∀ u, Answers u (serve u) ∧ (changesList c = false → SameList u (serve u).state)) :
    ServedOnce c s t := by
  injection h with h
  subst h
  rcases serveHead_cases s owner with hs | ⟨q, rest, r, serve, ⟨head, room, -⟩, hr, hs⟩
  · exact .idle hs
  · obtain ⟨answers, quiet⟩ := ho r serve hr (dequeued s rest)
    exact .answered q rest _ head room answers quiet hs

theorem ServedOnce.of_quiet (ho : ∀ r serve, owner r = some serve → ∀ u, QuietAnswers u (serve u)) : ServedOnce c s t :=
  .of_answers h fun r serve hr u => ⟨(ho r serve hr u).toAnswers, fun _ => (ho r serve hr u).same⟩

theorem ServedOnce.of_change (hc : changesList c = true) (ho : ∀ r serve, owner r = some serve → ∀ u, Answers u (serve u)) :
    ServedOnce c s t :=
  .of_answers h fun r serve hr u => ⟨ho r serve hr u, fun k => by simp [hc] at k⟩

end served

/-- Every request command but RESTART serves the head once or does nothing. -/
theorem exec_request {c : Instr} {s t : State} (hc : isRequest c = true) (hr : c ≠ .restart) (h : exec c s = .next t) :
    ServedOnce c s t := by
  cases c with
  | readStatus =>
    exact .of_quiet h fun r a ha u => by
      cases r <;> cases ha
      exact ⟨(answerReadStatus_quiet u).1, (answerReadStatus_quiet u).2⟩
  | setOrigin =>
    exact .of_quiet h fun r a ha u => by
      cases r <;> cases ha
      exact answerSetOrigin_quiet _ u
  | add =>
    exact .of_change h rfl fun r a ha u => by
      cases r <;> cases ha
      exact answerAdd_answers _ _ u
  | trimIn =>
    exact .of_change h rfl fun r a ha u => by
      cases r <;> cases ha
      exact answerTrimIn_answers _ _ _ u
  | trimOut =>
    exact .of_change h rfl fun r a ha u => by
      cases r <;> cases ha
      exact answerTrimOut_answers _ _ _ u
  | slip =>
    exact .of_change h rfl fun r a ha u => by
      cases r <;> cases ha
      exact answerSlip_answers _ _ _ _ u
  | trimTransition =>
    exact .of_change h rfl fun r a ha u => by
      cases r <;> cases ha
      exact answerTrimTransition_answers _ _ u
  | setSplit =>
    exact .of_change h rfl fun r a ha u => by
      cases r <;> cases ha
      exact answerSetSplit_answers _ _ u
  | move =>
    exact .of_change h rfl fun r a ha u => by
      cases r <;> cases ha
      exact answerMove_answers _ _ _ u
  | delete =>
    exact .of_change h rfl fun r a ha u => by
      cases r <;> cases ha
      exact answerDelete_answers _ _ u
  | readEvent =>
    exact .of_quiet h fun r a ha u => by
      cases r <;> cases ha
      exact answerReadEvent_quiet _ u
  | readOrdinal =>
    exact .of_quiet h fun r a ha u => by
      cases r <;> cases ha
      exact answerReadOrdinal_quiet _ u
  | next =>
    exact .of_quiet h fun r a ha u => by
      cases r <;> cases ha
      exact answerNext_quiet _ u
  | previous =>
    exact .of_quiet h fun r a ha u => by
      cases r <;> cases ha
      exact answerPrevious_quiet _ u
  | count =>
    exact .of_quiet h fun r a ha u => by
      cases r <;> cases ha
      exact unchanged_quiet u _ _
  | findAt =>
    exact .of_quiet h fun r a ha u => by
      cases r <;> cases ha
      exact lookupAt_quiet u _ _ _
  | matchFrame =>
    exact .of_quiet h fun r a ha u => by
      cases r <;> cases ha
      exact lookupAt_quiet u _ _ _
  | clearList =>
    exact .of_change h rfl fun r a ha u => by
      cases r <;> cases ha
      exact answerClearList_answers u
  | configureMachine =>
    exact .of_quiet h fun r a ha u => by
      cases r <;> cases ha
      exact answerConfigure_quiet _ _ _ u
  | setRecorder =>
    exact .of_quiet h fun r a ha u => by
      cases r <;> cases ha
      exact answerSetRecorder_quiet _ u
  | setStandard e =>
    exact .of_quiet h fun r a ha u => by
      cases r <;> cases ha
      exact answerSetStandard_quiet _ _ u
  | readMachine =>
    exact .of_quiet h fun r a ha u => by
      cases r <;> cases ha
      exact unchanged_quiet u _ _
  | stop =>
    exact .of_quiet h fun r a ha u => by
      cases r <;> cases ha
      exact transport_quiet u _ rfl 0 true rfl []
  | play =>
    exact .of_quiet h fun r a ha u => by
      cases r <;> cases ha
      exact transport_quiet u _ rfl 256 false rfl []
  | shuttle =>
    exact .of_quiet h fun r a ha u => by
      cases r <;> cases ha
      exact answerShuttle_quiet _ _ u
  | locate =>
    exact .of_quiet h fun r a ha u => by
      cases r <;> cases ha
      exact answerLocate_quiet _ _ u
  | follow =>
    exact .of_quiet h fun r a ha u => by
      cases r <;> cases ha
      exact answerFollow_quiet _ _ _ u
  | unfollow =>
    exact .of_quiet h fun r a ha u => by
      cases r <;> cases ha
      exact answerUnfollow_quiet _ u
  | markIn =>
    exact .of_quiet h fun r a ha u => by
      cases r <;> cases ha
      exact mark_quiet u _ fun _ => .of_same rfl rfl (.inl (Nat.le_refl _)) rfl rfl rfl rfl rfl
  | markOut =>
    exact .of_quiet h fun r a ha u => by
      cases r <;> cases ha
      exact mark_quiet u _ fun _ => .of_same rfl rfl (.inl (Nat.le_refl _)) rfl rfl rfl rfl rfl
  | clearMarks =>
    exact .of_quiet h fun r a ha u => by
      cases r <;> cases ha
      exact answerClearMarks_quiet _ u
  | select =>
    exact .of_quiet h fun r a ha u => by
      cases r <;> cases ha
      exact answerSelect_quiet _ u
  | readEffects =>
    exact .of_quiet h fun r a ha u => by
      cases r <;> cases ha
      exact answerReadEffects_quiet _ u
  | setCueLine =>
    exact .of_quiet h fun r a ha u => by
      cases r <;> cases ha
      exact answerSetCueLine_quiet _ _ u
  | fire =>
    exact .of_quiet h fun r a ha u => by
      cases r <;> cases ha
      exact answerFire_quiet _ _ u
  | readCueLine =>
    exact .of_quiet h fun r a ha u => by
      cases r <;> cases ha
      exact answerReadCueLine_quiet _ u
  | run =>
    exact .of_quiet h fun r a ha u => by
      cases r <;> cases ha
      exact answerRun_quiet _ _ u
  | hold =>
    exact .of_quiet h fun r a ha u => by
      cases r <;> cases ha
      exact answerHold_quiet u
  | abort =>
    exact .of_quiet h fun r a ha u => by
      cases r <;> cases ha
      exact answerAbort_quiet u
  | resumeRetry =>
    exact .of_quiet h fun r a ha u => by
      cases r <;> cases ha
      exact answerResumeRetry_quiet u
  | resumeSkip =>
    exact .of_quiet h fun r a ha u => by
      cases r <;> cases ha
      exact answerResumeSkip_quiet u
  | resetRun =>
    exact .of_quiet h fun r a ha u => by
      cases r <;> cases ha
      exact answerResetRun_quiet u
  | readRun =>
    exact .of_quiet h fun r a ha u => by
      cases r <;> cases ha
      exact unchanged_quiet u _ _
  | setRunParameters =>
    exact .of_quiet h fun r a ha u => by
      cases r <;> cases ha
      exact answerSetRunParameters_quiet _ _ _ _ u
  | unknownRequest =>
    dsimp only [exec, execUnknownRequest] at h
    split at h
    · injection h with h; exact .idle h.symm
    · rename_i q rest head
      split at h
      · rename_i ht
        injection h with h
        have room : s.console.replies.length < Config.replyCapacity := by
          have := (Bool.and_eq_true _ _).mp ht; simpa [replyRoom] using this.1
        exact .answered q rest _ head room (refuseWith_quiet _ _).toAnswers (fun _ => (refuseWith_quiet _ _).same) h.symm
      · injection h with h; exact .idle h.symm
  | restart => exact absurd rfl hr
  | _ => exact absurd hc (by simp [isRequest])

/-- RESTART takes the head, and answers it on the empty queues. -/
theorem exec_restart {s t : State} (h : exec .restart s = .next t) :
    t = s ∨ ∃ q rest, s.console.inbound = q :: rest ∧ t = replyTo q (answerRestart (dequeued s rest)) := by
  dsimp only [exec, execRestart] at h
  split at h
  · injection h with h; exact .inl h.symm
  · rename_i q rest head
    split at h
    · injection h with h; exact .inr ⟨q, rest, head, h.symm⟩
    · injection h with h; exact .inl h.symm

/-! ### The invariants under a request -/

theorem dequeued_keeps {s : State} {q : RequestMessage} {rest : List RequestMessage} (h : s.console.inbound = q :: rest) :
    Keeps s (dequeued s rest) ∧ SameList s (dequeued s rest) := by
  refine console_keeps fun ⟨inbound, replies, notices⟩ => ⟨?_, replies, notices⟩
  rw [h, List.length_cons] at inbound
  exact Nat.le_of_succ_le inbound

theorem placeReply_keeps {s : State} {r : Reply} (room : s.console.replies.length < Config.replyCapacity) :
    Keeps s (placeReply s r) ∧ SameList s (placeReply s r) := by
  rw [placeReply_spec]
  refine console_keeps (s := s) (f := fun c => { c with replies := c.replies ++ [r] }) fun ⟨inbound, replies, notices⟩ =>
    ⟨inbound, ?_, notices⟩
  show (s.console.replies ++ [r]).length ≤ _
  rw [List.length_append, List.length_singleton]
  exact room

theorem ServedOnce.keeps {c : Instr} {s t : State} (h : ServedOnce c s t) :
    Keeps s t ∧ (changesList c = false → SameList s t) := by
  cases h with
  | idle same => subst same; exact ⟨.refl _, fun _ => .refl _⟩
  | answered q rest a head room answers quiet reply =>
    have taken := dequeued_keeps head
    have placed := placeReply_keeps (s := a.state) (r := ⟨q.code, q.tag, a.result, a.data⟩) (by rw [answers.replies]; exact room)
    subst reply
    exact ⟨taken.1.trans (answers.keeps.trans placed.1), fun hc => taken.2.trans ((quiet hc).trans placed.2)⟩

theorem exec_restart_keeps {s t : State} (h : exec .restart s = .next t) : Keeps s t ∧ SameList s t := by
  rcases exec_restart h with same | ⟨q, rest, head, reply⟩
  · subst same; exact ⟨.refl _, .refl _⟩
  · subst reply
    exact keeps_trans (dequeued_keeps head) (keeps_trans (restart_keeps _) (placeReply_keeps (Nat.succ_pos _)))

/-- What every command keeps. -/
theorem exec_keeps {c : Instr} {s t : State} (h : exec c s = .next t) : Keeps s t ∧ (changesList c = false → SameList s t) := by
  cases hc : isRequest c with
  | false =>
    obtain ⟨keeps, same⟩ := exec_event_keeps hc h
    exact ⟨keeps, fun hl => same (fun k => by simp [k, changesList] at hl)⟩
  | true =>
    by_cases hr : c = .restart
    · subst hr
      obtain ⟨keeps, same⟩ := exec_restart_keeps h
      exact ⟨keeps, fun _ => same⟩
    · exact (exec_request hc hr h).keeps

theorem withPending_keeps (s : State) (cs : List Instr) : Keeps s (s.withPending cs) := .of_outer rfl rfl rfl id id id

theorem step_keeps {s t : State} (h : step s = .next t) : Keeps s t := by
  unfold step at h
  split at h
  · injection h with h; subst h; exact .refl _
  · exact (withPending_keeps s _).trans (exec_keeps h).1

/-! ### The statements -/

/-- Settles O1. -/
theorem stepRunsFrontCommand : Obligations.StepRunsFrontCommand :=
  ⟨fun _ _ _ => rfl, fun s h => by unfold step; rw [h]⟩

/-- Settles O4. -/
theorem invariantsHoldAtReset : Obligations.InvariantsHoldAtReset :=
  ⟨reset_safe, reset_listSound, reset_stopRests, reset_leadersEnd⟩

/-- Settles O5: block by block through `BlockStep`, request by request through `Answers`. -/
theorem queuesAndCountsStayInRange : Obligations.QueuesAndCountsStayInRange := fun _ _ h hs => (step_keeps hs).safe h

/-- Settles O6: a change writes what its tests left exclusive; nothing else moves the list or its domain. -/
theorem listStaysOrderedAndExclusive : Obligations.ListStaysOrderedAndExclusive := fun _ _ h hs => (step_keeps hs).list h

/-- Settles O7. -/
theorem stopKeepsSuiteAtRest : Obligations.StopKeepsSuiteAtRest := fun _ _ h hs => (step_keeps hs).rests h

/-- Settles O8: FOLLOW alone gives a leader, and its walk has been tested. -/
theorem leadersNeverCycle : Obligations.LeadersNeverCycle := fun _ _ h hs => (step_keeps hs).leaders h

/-- Settles O9. -/
theorem requestsAnsweredOnceRefusalsChangeNothing : Obligations.RequestsAnsweredOnceRefusalsChangeNothing := by
  intro c s t hc h
  by_cases hr : c = .restart
  · subst hr
    rcases exec_restart h with same | ⟨q, rest, head, reply⟩
    · exact .inl same
    · subst reply
      exact .inr ⟨q, rest, .ok, _, head, .inr ⟨rfl, rfl, rfl, rfl⟩⟩
  · cases exec_request hc hr h with
    | idle same => exact .inl same
    | answered q rest a head room answers quiet reply =>
      subst reply
      refine .inr ⟨q, rest, a.result, a.data, head, .inl ⟨hr, room, answers.inbound, ?_, fun served => ?_⟩⟩
      · rw [replyTo, placeReply_spec]
        show a.state.console.replies ++ _ = _
        rw [answers.replies]; rfl
      · rw [replyTo, answers.refusal served]; rfl

/-- Settles O10. -/
theorem onlyListRequestsChangeList : Obligations.OnlyListRequestsChangeList := fun _ _ _ hc h => (exec_keeps h).2 hc

end Sys2Proof.Machine
end

section
/-! SUPPORT and the statements of the Timeline Unit: what the field start made by a clock or a pulse leaves (R20), and the
reset, the ticks, the pulses and the expiries (R15 to R19). -/

namespace Sys2Proof.Machine

/-! ### A field start made (R20) -/

theorem takeField_waits (s : State) (r : Receiver) : (takeField s r).waiting = s.waiting.erase r := by
  cases hw : s.waiting.contains r with
  | false => rw [takeField_taken hw, List.erase_of_not_mem (by simpa using hw)]
  | true => rw [takeField_waiting hw]; exact (actOnField_step { s with waiting := s.waiting.erase r } r).waiting

theorem takeAll_waits (s : State) (rs : List Receiver) : (takeAll s rs).waiting = rs.foldl List.erase s.waiting := by
  unfold takeAll
  induction rs generalizing s with
  | nil => rfl
  | cons r rs ih => rw [List.foldl_cons, ih, takeField_waits, List.foldl_cons]

/-- No block waits twice, so every one has taken the field start when all have. -/
theorem settle_waits {s : State} (h : WaitsOnce s) : (settle s).waiting = [] := by
  unfold settle
  rw [takeAll_waits]
  refine List.eq_nil_iff_forall_not_mem.mpr fun r hr => ?_
  exact ((mem_foldl_erase h _ r).mp hr).2 (mem_allReceivers r)

theorem FieldTaken.timeline {s t : State} (h : FieldTaken s t) : t.timeline = { s.timeline with clock := t.timeline.clock } :=
  h.block.timeline

theorem settle_nextCount (s : State) : nextCount (settle s) = nextCount s := by
  unfold nextCount
  rw [(settle_step s).timeline]

/-- What a field start leaves: the new field, the blocks that still wait, and else the work of the blocks that took it or
the one before. -/
structure FieldMade (s t : State) (parity : Parity) (takers : List Receiver) : Prop where
  frame : t = { s with timeline := t.timeline, store := t.store, ports := t.ports, machines := t.machines, run := t.run,
                       effects := t.effects, cues := t.cues, console := t.console, waiting := t.waiting }
  timeline : t.timeline = { s.timeline with field := some ⟨nextCount s, parity⟩, clock := t.timeline.clock }
  waits : ∀ r, t.waiting.contains r = !takers.contains r
  same : SameList s t
  link : OnlyNotices s t
  stop : t.cues.stop = s.cues.stop
  notices : NoticesKept s t

section made
variable {s t : State} {parity : Parity} {takers : List Receiver} (h : FieldMade s t parity takers)
include h

theorem FieldMade.now : t.now = s.now := by rw [h.frame]
theorem FieldMade.recorder : t.recorder = s.recorder := by rw [h.frame]
theorem FieldMade.runParams : t.runParams = s.runParams := by rw [h.frame]
theorem FieldMade.pending : t.pending = s.pending := by rw [h.frame]
theorem FieldMade.field : t.timeline.field = some ⟨nextCount s, parity⟩ := by rw [h.timeline]

end made

theorem fieldStart_made (s : State) (parity : Parity) (takers : List Receiver) :
    FieldMade s (fieldStart s parity takers) parity takers := by
  have settled := settle_step s
  have next := settle_nextCount s
  unfold fieldStart
  dsimp only
  generalize settle s = u at settled next
  have taken := takeAll_step { u.updateTimeline (fun x => { x with field := some ⟨nextCount u, parity⟩ }) with
    waiting := allReceivers } takers
  refine ⟨?_, ?_, fun r => ?_, settled.sameList.trans taken.sameList, settled.block.link.trans taken.block.link,
    taken.block.stop.trans settled.block.stop, ?_⟩
  · generalize takeAll _ takers = t at taken
    rw [taken.block.frame]
    dsimp only [State.updateTimeline]
    rw [settled.block.frame]
  · generalize takeAll _ takers = t at taken
    rw [taken.timeline]
    dsimp only [State.updateTimeline]
    rw [next, settled.timeline]
  · rw [takeAll_waits]
    have waits := mem_foldl_erase allReceivers_nodup takers r
    by_cases hr : r ∈ takers
    · rw [List.contains_iff_mem.mpr hr, Bool.not_true, ← Bool.not_eq_true, List.contains_iff_mem]
      exact fun h => (waits.mp h).2 hr
    · rw [List.contains_iff_mem.mpr (waits.mpr ⟨mem_allReceivers r, hr⟩), eq_comm, Bool.not_eq_true', ← Bool.not_eq_true,
        List.contains_iff_mem]
      exact hr
  · exact ⟨taken.block.notices.fits ∘ settled.block.notices.fits,
      fun k hk hn => taken.block.notices.noticed k hk (settled.block.notices.noticed k hk hn)⟩

/-! ### Reset (R18, R22, R194) -/

/-- Settles O2. -/
theorem resetLeavesStatedValues : Obligations.ResetLeavesStatedValues := by
  refine ⟨⟨rfl, rfl, rfl, rfl, rfl, rfl, rfl⟩, ⟨rfl, rfl⟩, fun m => ?_, fun m => ?_, rfl,
    ⟨rfl, rfl, rfl, rfl, rfl, rfl, rfl, rfl, rfl, rfl, rfl, rfl, rfl, rfl, rfl, rfl⟩, ⟨rfl, rfl, rfl, rfl, rfl, rfl⟩,
    fun g => ?_, rfl, rfl, rfl, rfl, rfl, rfl, rfl, rfl, rfl⟩
  · unfold State.link
    rw [State.reset_port]
    exact ⟨rfl, rfl, rfl, rfl, rfl, rfl, rfl⟩
  · rw [State.reset_machine]
    exact ⟨rfl, rfl, rfl, rfl, rfl, rfl, rfl, rfl, rfl, rfl, rfl, rfl, rfl, rfl, rfl⟩
  · rw [State.reset_cueLine]
    exact ⟨rfl, rfl, rfl, rfl, rfl, rfl⟩

theorem advanceTo_later (s : State) (n : Nat) : advanceTo s (s.now + n) = { s with now := s.now + n } := by
  unfold advanceTo
  rw [Nat.max_eq_right (Nat.le_add_right _ _)]

theorem execInternalFieldTick_runs {s : State} (takers : List Receiver) (hr : s.inReset = false)
    (ho : s.timeline.refState ≠ .onReference) :
    exec (.internalFieldTick takers) s
      = .next (fieldStart (tickAt s (nextTick s) (opposite s.timeline.tickParity)) (opposite s.timeline.tickParity) takers) := by
  have runs : clockRuns s = true := by simp [clockRuns, hr, ho]
  dsimp only [exec, execInternalFieldTick]
  rw [if_pos runs]

/-- Settles O3. -/
theorem resetInputRestartsFieldClock : Obligations.ResetInputRestartsFieldClock := by
  refine ⟨fun s => rfl, fun s hs => by simp [State.attention, hs], fun s hs => ?_, fun takers => ?_⟩
  · dsimp only [exec, execResetRelease]
    rw [if_pos hs]; rfl
  · have made := fieldStart_made (tickAt State.reset (nextTick State.reset) (opposite State.reset.timeline.tickParity))
      (opposite State.reset.timeline.tickParity) takers
    exact ⟨_, execInternalFieldTick_runs takers rfl (by decide), made.field, made.now⟩

/-! ### The internal clock (R18, R20) -/

/-- Settles O11. -/
theorem internalTickMakesFieldStart : Obligations.InternalTickMakesFieldStart := by
  intro s takers hr ho
  have made := fieldStart_made (tickAt s (nextTick s) (opposite s.timeline.tickParity)) (opposite s.timeline.tickParity) takers
  refine ⟨_, execInternalFieldTick_runs takers hr ho, ?_⟩
  generalize fieldStart _ _ takers = t at made
  have count : fieldCount t = nextCount s := by unfold fieldCount; rw [made.field]; rfl
  refine ⟨made.timeline, made.now, made.waits, made.same.1, made.recorder, made.runParams, made.stop, made.link, made.pending,
    fun hf => ?_, fun f hf hc => ?_, fun f hf hc => ?_⟩ <;> rw [count] <;> simp only [nextCount, hf]
  · exact Nat.mod_eq_of_lt (by simp only [Config.wordLimit]; omega)
  · rw [hc]; rfl

/-! ### Pulses (R15, R16, R19) -/

section pulse
variable {s : State} {T : Nat} {id : Parity} {p : Pulse} (hp : s.timeline.lastPulse = some p)
include hp

theorem early_eq : early s T = decide (4 * (T - p.time) < 3 * s.timeline.standard.period) := by
  unfold early; rw [hp]

theorem continuing_iff : continuing s T id = true
    ↔ 2 * (T - p.time) ≤ 3 * s.timeline.standard.period ∧ id = opposite p.fieldId ∧ s.timeline.goodCount ≠ 0 := by
  unfold continuing
  rw [hp]
  simp [and_assoc]

end pulse

theorem countAfter_continuing {s : State} {T : Nat} {id : Parity} (h : continuing s T id = true) :
    countAfter s T id = min 16 (s.timeline.goodCount + 1) := by unfold countAfter; rw [if_pos h]; rfl

theorem countAfter_first {s : State} {T : Nat} {id : Parity} (h : continuing s T id = false) : countAfter s T id = 1 := by
  unfold countAfter; rw [h]; rfl

section arrives
variable {s : State} {elapsed : Nat} {id : Parity} (takers : List Receiver) (hr : s.inReset = false)
include hr

theorem execReferencePulse_early (he : early s (s.now + elapsed) = true) :
    exec (.referencePulse elapsed id takers) s = .next (advanceTo s (s.now + elapsed)) := by
  simp [exec, execReferencePulse, hr, he]

theorem execReferencePulse_on (he : early s (s.now + elapsed) = false) (ho : s.timeline.refState = .onReference) :
    exec (.referencePulse elapsed id takers) s = .next (pulseOnReference s (s.now + elapsed) id takers) := by
  simp [exec, execReferencePulse, hr, he, ho]

theorem execReferencePulse_off (he : early s (s.now + elapsed) = false) (ho : s.timeline.refState ≠ .onReference) :
    exec (.referencePulse elapsed id takers) s = .next (pulseOffReference s (s.now + elapsed) id takers) := by
  simp [exec, execReferencePulse, hr, he, ho]

end arrives

/-- Settles O12. -/
theorem pulsesAreCountedOffReference : Obligations.PulsesAreCountedOffReference := by
  intro s elapsed id takers hr
  dsimp only
  refine ⟨fun p hp h => ?_, fun ho hw => ⟨fun p hp h => ?_, fun hp => ?_⟩⟩
  · rw [execReferencePulse_early takers hr (by rw [early_eq hp]; exact decide_eq_true h), advanceTo_later]
  · rw [execReferencePulse_off takers hr (by rw [early_eq hp]; exact decide_eq_false (by omega)) ho]
    simp only [pulseOffReference, hw, Bool.false_eq_true, if_false]
    unfold followCount takePulse
    rw [advanceTo_later]
    by_cases hc : continuing s (s.now + elapsed) id = true
    · simp only [countAfter_continuing hc, if_pos ((continuing_iff hp).mp hc)]; rfl
    · simp only [countAfter_first (by simpa using hc), if_neg fun k => hc ((continuing_iff hp).mpr k)]; rfl
  · have first : continuing s (s.now + elapsed) id = false := by unfold continuing; rw [hp]
    rw [execReferencePulse_off takers hr (by unfold early; rw [hp]) ho]
    simp only [pulseOffReference, hw, Bool.false_eq_true, if_false]
    unfold followCount takePulse
    rw [advanceTo_later, countAfter_first first]
    rfl

/-- Settles O13. -/
theorem pulsesMakeFieldStartsOnReference : Obligations.PulsesMakeFieldStartsOnReference := by
  intro s elapsed id takers p hr ho hp h
  have taken : exec (.referencePulse elapsed id takers) s = .next (pulseOnReference s (s.now + elapsed) id takers) :=
    execReferencePulse_on takers hr (by rw [early_eq hp]; exact decide_eq_false (by omega)) ho
  rw [taken]
  unfold pulseOnReference
  refine ⟨fun near other some broken => ?_, fun near other some broken => ?_, fun first => ?_⟩
  · have cont : continuing s (s.now + elapsed) id = true := (continuing_iff hp).mpr ⟨near, other, some⟩
    rw [if_pos cont, broken, if_neg (by simp), takePulse, advanceTo_later, countAfter_continuing cont]
    have made := fieldStart_made (({ s with now := s.now + elapsed }.updateTimeline (fun x =>
      { x with lastPulse := Option.some ⟨s.now + elapsed, id⟩, goodCount := min 16 (s.timeline.goodCount + 1) })).updateTimeline
        (fun x => { x with refFieldStart := Option.some (s.now + elapsed) })) id takers
    exact ⟨_, rfl, made.timeline, made.now, made.waits, made.same.1, made.link, made.recorder, made.runParams⟩
  · have cont : continuing s (s.now + elapsed) id = true := (continuing_iff hp).mpr ⟨near, other, some⟩
    rw [if_pos cont, broken, if_pos rfl, takePulse, advanceTo_later, countAfter_continuing cont]
    rfl
  · have cont : continuing s (s.now + elapsed) id = false := by
      rw [← Bool.not_eq_true, continuing_iff hp]
      rintro ⟨near, rfl, some⟩
      rcases first with far | same | zero
      · omega
      · cases hid : p.fieldId <;> simp [hid, opposite] at same
      · exact some zero
    rw [cont, if_neg (by simp), takePulse, advanceTo_later, countAfter_first cont]
    rfl

/-- The part on reference, before the field start of the pulse is made. -/
theorem goOnReference_spec (s : State) (n : Nat) (id : Parity) :
    (goOnReference s (s.now + n) id).timeline
        = { s.timeline with
            lastPulse := some ⟨s.now + n, id⟩, goodCount := countAfter s (s.now + n) id, refState := .onReference
            refFieldStart := some (s.now + n), refBroken := false }
      ∧ Noticed (goOnReference s (s.now + n) id) (.reference .restored) ∧ SameList s (goOnReference s (s.now + n) id) :=
  ⟨rfl, raiseNotice_noticed _ _, rfl, rfl⟩

/-- Settles O14: the blocks that wait take the last field start before the run's phase is looked at. -/
theorem switchToReferenceAtRest : Obligations.SwitchToReferenceAtRest := by
  intro s elapsed id takers p hr hw hg hp h near other
  have settled := settle_step s
  have timeline := settled.timeline
  have now : (settle s).now = s.now := settled.block.now
  have cont : continuing s (s.now + elapsed) id = true := (continuing_iff hp).mpr ⟨near, other, by omega⟩
  have count : countAfter (settle s) (s.now + elapsed) id = 16 := by
    have same : continuing (settle s) (s.now + elapsed) id = continuing s (s.now + elapsed) id := by
      unfold continuing; rw [timeline]
    rw [countAfter_continuing (same.trans cont), timeline]
    dsimp only
    omega
  have may : maySwitch s (s.now + elapsed) id = true := by simp [maySwitch, hw, hg, cont, Config.goodPulses]
  rw [execReferencePulse_off takers hr (by rw [early_eq hp]; exact decide_eq_false (by omega)) (by simp [hw])]
  unfold pulseOffReference
  rw [if_pos may]
  refine ⟨fun rest => ?_, fun active => ?_⟩
  · rw [if_pos (by unfold Phase.atRest; rw [rest]; rfl)]
    refine ⟨_, rfl, ?_⟩
    have following := settle_nextCount s
    generalize settle s = u at *
    obtain ⟨line, noticed, same⟩ := goOnReference_spec u elapsed id
    rw [now, count] at line
    rw [now] at noticed same
    have ago : halfPeriodAgo u (s.now + elapsed) = halfPeriodAgo s (s.now + elapsed) := by
      unfold halfPeriodAgo; rw [timeline]
    unfold switchToReference
    rw [ago]
    split
    · rename_i recent
      refine ⟨by rw [line], by rw [line], by rw [line], by rw [line], by rw [line], noticed, fun k hk hlt => ?_, fun k => ?_,
        (settled.sameList.trans same).1⟩
      · rw [line, timeline]
      · rcases k with k | ⟨k, hk, hle⟩
        · simp [halfPeriodAgo, k] at recent
        · simp only [halfPeriodAgo, hk, decide_eq_true_eq] at recent; omega
    · rename_i past
      have made := fieldStart_made (goOnReference u (s.now + elapsed) id) id takers
      generalize fieldStart _ id takers = t at made
      have next : nextCount (goOnReference u (s.now + elapsed) id) = nextCount s := by
        rw [← following]; unfold nextCount; rw [line]
      have after : t.timeline = _ := made.timeline
      rw [line, next] at after
      exact ⟨by rw [after], by rw [after], by rw [after], by rw [after], by rw [after],
        made.notices.noticed _ rfl noticed, fun k hk hlt => absurd (by simp [halfPeriodAgo, hk, hlt]) past,
        fun _ => by rw [made.field, next], (settled.sameList.trans (same.trans made.same)).1⟩
  · rw [if_neg (by unfold Phase.atRest; rw [active]; simp)]
    refine ⟨_, rfl, ?_⟩
    generalize settle s = u at *
    have line : (followCount (takePulse u (s.now + elapsed) id)).timeline
        = { u.timeline with
            lastPulse := some ⟨s.now + elapsed, id⟩, goodCount := countAfter u (s.now + elapsed) id
            refState := stateOfCount (countAfter u (s.now + elapsed) id) } := rfl
    rw [line, count, timeline]
    exact ⟨rfl, rfl, rfl, rfl⟩

/-! ### Expiries (R15, R17) -/

theorem restoreEvent_timeline (s : State) : (restoreEvent s).timeline = s.timeline := by
  unfold restoreEvent
  split
  · rw [(changeEventState_frame s _ _).1]
  · rfl

theorem loseReference_timeline (s : State) (t : Nat) :
    (loseReference s t).timeline
      = { s.timeline with
          clockBase := t, lastTick := some t, tickParity := oppositeToLast s, refState := .absent, refFieldStart := none
          refBroken := false } := rfl

theorem execGapExpiry_taken {s : State} {p : Pulse} (hr : s.inReset = false) (hp : s.timeline.lastPulse = some p) :
    exec .gapExpiry s = .next ((advanceTo s (p.time + s.timeline.standard.expiry)).updateTimeline (fun x =>
      { x with goodCount := 0, refState := afterGap x.refState })) := by
  simp [exec, execGapExpiry, hp, hr]

/-- A hold stops the timeline clock (R134). -/
theorem holdRun_clock {s : State} (h : s.run.phase.active = true) (cause : HoldCause) (m : Option MachineId) :
    (holdRun s cause m).timeline.clock = none := by
  unfold holdRun
  rw [if_pos h]
  show (restoreEvent (discardCues (stopClock (releaseAll (holdEditOff s))))).timeline.clock = none
  rw [restoreEvent_timeline]
  rfl

/-- With no block named and none still waiting, the field start of the loss leaves the run as it stands. -/
theorem fieldStart_untaken {s : State} (h : s.waiting = []) (parity : Parity) : (fieldStart s parity []).run = s.run := by
  have settled : settle s = s :=
    takeAll_keeps (P := fun t => t = s) (fun t r ht => by rw [ht, takeField_taken (by rw [h]; rfl)]) _ rfl
  unfold fieldStart
  rw [settled]
  rfl

/-- What the loss of reference leaves (R17). -/
theorem loss_spec (s : State) (T : Nat) (takers : List Receiver) :
    (loss s T takers).timeline
        = { s.timeline with
            field := some ⟨nextCount s, oppositeToLast s⟩, clockBase := T, lastTick := some T
            tickParity := oppositeToLast s, refState := .absent, refFieldStart := none, refBroken := false
            clock := (loss s T takers).timeline.clock }
      ∧ Noticed (loss s T takers) (.reference .lost) ∧ (loss s T takers).run.phase.active = false
      ∧ (takers = [] → s.waiting = [] → s.run.phase.active = true →
          (loss s T takers).run.phase = .held ∧ (loss s T takers).run.holdCause = some .referenceLost
            ∧ (loss s T takers).timeline.clock = none)
      ∧ SameList s (loss s T takers) ∧ (loss s T takers).recorder = s.recorder := by
  have made := fieldStart_made (loseReference s T) (oppositeToLast s) takers
  have kept : takers = [] → s.waiting = [] → (fieldStart (loseReference s T) (oppositeToLast s) takers).run = s.run :=
    fun he hw => by subst he; exact fieldStart_untaken (s := loseReference s T) hw (oppositeToLast s)
  unfold loss
  generalize fieldStart _ _ takers = t at made kept
  have held := holdRun_step (raiseNotice t (.reference .lost)) .referenceLost none
  have line := made.timeline
  rw [loseReference_timeline] at line
  have lost : SameList s (loseReference s T) := ⟨rfl, rfl⟩
  have raised := BlockStep.raiseNotice t (.reference .lost)
  refine ⟨held.timeline.trans ?_, held.notices.noticed _ rfl (raiseNotice_noticed _ _), holdRun_inactive _ _ _,
    fun he hw active => ?_, lost.trans (made.same.trans (raised.sameList.trans held.sameList)),
    held.recorder.trans (raised.recorder.trans made.recorder)⟩
  · have out : (raiseNotice t (.reference .lost)).timeline = t.timeline := rfl
    rw [out, line]
    rfl
  · have active : (raiseNotice t (.reference .lost)).run.phase.active = true := by rw [← active, ← kept he hw]; rfl
    obtain ⟨phase, cause, -⟩ := holdRun_run active .referenceLost none
    exact ⟨phase, cause, holdRun_clock active _ _⟩

/-- Settles O15. -/
theorem expiriesEndTheReference : Obligations.ExpiriesEndTheReference := by
  refine ⟨fun s p hr hp => ?_, fun s takers f last hr ho hf hl => ?_⟩
  · have gap : afterGap s.timeline.refState = if s.timeline.refState = .onReference then .onReference else .absent := by
      cases s.timeline.refState <;> rfl
    rw [← gap, execGapExpiry_taken hr hp]
    rfl
  · have settled := settle_step s
    have timeline := settled.timeline
    have next := settle_nextCount s
    refine ⟨loss (settle s) (f + s.timeline.standard.expiry) takers, ?_, ?_⟩
    · simp only [exec, execLossExpiry, ho, hf, hr]; rfl
    have waits : WaitsOnce s → (settle s).waiting = [] := settle_waits
    generalize settle s = u at *
    have parity : oppositeToLast u = opposite last.parity := by unfold oppositeToLast; rw [timeline]; simp [hl]
    obtain ⟨line, noticed, inactive, held, same, recorder⟩ := loss_spec u (f + s.timeline.standard.expiry) takers
    rw [next, parity] at line
    refine ⟨by rw [line], by rw [line], by rw [line], by rw [line]; rfl, by rw [line]; rfl, ?_, noticed, inactive,
      fun he once => held he (waits once), (settled.sameList.trans same).1, recorder.trans settled.block.recorder⟩
    rw [line, timeline]

end Sys2Proof.Machine
end

section
/-! SUPPORT and the statements of the requests that set the timeline's domain (R2, R13, R97, R98). -/

namespace Sys2Proof.Machine

/-! ### A request served -/

/-- The head request that a command serves is answered on the state without it. -/
theorem exec_served {c : Instr} {s : State} {q : RequestMessage} {rest : List RequestMessage} {r : Request}
    {owner : Request → Option (State → Answer)} {serve : State → Answer} (h : HeadIs s q rest r)
    (hc : exec c s = .next (serveHead s owner)) (ho : owner r = some serve) :
    exec c s = .next (replyTo q (serve (dequeued s rest))) := by
  rw [hc, serveHead_served h ho]

theorem refuses_of {c : Instr} {s : State} {q : RequestMessage} {rest : List RequestMessage} {a : Answer} {result : Result}
    (h : exec c s = .next (replyTo q a)) (ha : a = refuseWith (dequeued s rest) result) : Refuses c s q rest result := by
  rw [ha] at h; exact h

theorem convert_of_label {mode : LabelMode} {l : Label} {x : Nat × Bool} (h : consoleLabel mode l = some x) :
    convert mode l = .ok x := by unfold convert; rw [h]

theorem convert_bad {mode : LabelMode} {l : Label} (h : labelInRange mode l = false) : convert mode l = .error .badTimecode := by
  unfold convert consoleLabel; simp [h]

theorem runIdle_iff (s : State) : runIdle s = true ↔ s.run.phase = .idle := by simp [runIdle]

theorem isEmpty_iff_events (s : State) : s.store.events.isEmpty = true ↔ s.store.events = [] := List.isEmpty_iff

section dequeued
variable (s : State) (rest : List RequestMessage)

@[simp] theorem dequeued_timelineMode : timelineMode (dequeued s rest) = timelineMode s := rfl
@[simp] theorem dequeued_dayRec : dayRec (dequeued s rest) = dayRec s := rfl
@[simp] theorem dequeued_modeOf (m : MachineId) : modeOf (dequeued s rest) m = modeOf s m := rfl
@[simp] theorem dequeued_findEvent (h : Nat) : findEvent (dequeued s rest) h = findEvent s h := rfl

end dequeued

/-! ### Folds over machines -/

/-- A relation that each turn of a fold meets is met by the fold. -/
theorem foldl_rel {σ α : Type} {R : σ → σ → Prop} (refl : ∀ s, R s s) (trans : ∀ s t u, R s t → R t u → R s u) {g : σ → α → σ}
    (turn : ∀ s a, R s (g s a)) (l : List α) (s : σ) : R s (l.foldl g s) := by
  induction l generalizing s with
  | nil => exact refl s
  | cons a as ih => exact trans _ _ _ (turn s a) (ih _)

/-- An operation done once for each of a list: what an element's own turn makes of what it finds stays, when no other turn
touches either. -/
theorem foldl_at {σ α : Type} {g : σ → α → σ} {P Q : σ → Prop} {a : α} (skip : ∀ s b, b ≠ a → P s → P (g s b))
    (turn : ∀ s, P s → Q (g s a)) (keep : ∀ s b, b ≠ a → Q s → Q (g s b)) {l : List α} (once : l.Nodup) (ha : a ∈ l) {s : σ}
    (hs : P s) : Q (l.foldl g s) := by
  have after {l : List α} (hl : a ∉ l) : ∀ s, Q s → Q (l.foldl g s) := by
    induction l with
    | nil => exact fun _ h => h
    | cons b bs ih =>
      obtain ⟨hb, hbs⟩ := List.ne_and_not_mem_of_not_mem_cons hl
      exact fun s h => ih hbs _ (keep s b hb.symm h)
  induction l generalizing s with
  | nil => simp at ha
  | cons b bs ih =>
    obtain ⟨hb, hbs⟩ := List.nodup_cons.mp once
    by_cases hba : b = a
    · subst hba; exact after hb _ (turn s hs)
    · exact ih hbs ((List.mem_cons.mp ha).resolve_left (Ne.symm hba)) (skip s b hba hs)

/-! ### Locates and follows that a new label mode ends (R96) -/

/-- What the end of locates and follows keeps of a record: its domain and marks; the control state but for FREE; and all of a
record that is neither configured nor a follower's. -/
structure MotionEnded (x y : MachineRec) : Prop where
  configured : y.configured = x.configured
  params : y.params = x.params
  position : y.position = x.position
  quality : y.quality = x.quality
  marks : y.markIn = x.markIn ∧ y.markOut = x.markOut
  control : y.control = x.control ∨ y.control = .free
  following : x.following = false → y.following = false
  still : x.configured = false → x.following = false → y = x

theorem MotionEnded.refl (x : MachineRec) : MotionEnded x x := ⟨rfl, rfl, rfl, rfl, ⟨rfl, rfl⟩, .inl rfl, id, fun _ _ => rfl⟩

theorem MotionEnded.trans {x y z : MachineRec} (h : MotionEnded x y) (k : MotionEnded y z) : MotionEnded x z where
  configured := k.configured.trans h.configured
  params := k.params.trans h.params
  position := k.position.trans h.position
  quality := k.quality.trans h.quality
  marks := ⟨k.marks.1.trans h.marks.1, k.marks.2.trans h.marks.2⟩
  control := by
    rcases k.control with hk | hk
    · rw [hk]; exact h.control
    · exact .inr hk
  following hx := k.following (h.following hx)
  still hc hf := (k.still (h.configured.trans hc) (h.following hf)).trans (h.still hc hf)

/-- Every machine's record is so kept, and its port's CTL anchor with it. -/
def MotionsEnd (s t : State) : Prop :=
  ∀ n, MotionEnded (s.machine n) (t.machine n) ∧ (t.port n).ctlAnchor = (s.port n).ctlAnchor

theorem MotionsEnd.refl (s : State) : MotionsEnd s s := fun _ => ⟨.refl _, rfl⟩

theorem MotionsEnd.trans {s t u : State} (h : MotionsEnd s t) (k : MotionsEnd t u) : MotionsEnd s u :=
  fun n => ⟨(h n).1.trans (k n).1, (k n).2.trans (h n).2⟩

theorem MotionsEnd.of_others {s t : State} {m : MachineId} (others : OthersKept s t m)
    (own : MotionEnded (s.machine m) (t.machine m) ∧ (t.port m).ctlAnchor = (s.port m).ctlAnchor) : MotionsEnd s t := by
  intro n
  by_cases hn : n = m
  · subst hn; exact own
  · rw [(others n hn).1, (others n hn).2]; exact ⟨.refl _, rfl⟩

/-- The CTL anchor is no part of a queue. -/
theorem tryMotion_ctlAnchor (s : State) (m n : MachineId) (r : DeckRequest) (v : Int) :
    ((tryMotion s m r v).port n).ctlAnchor = (s.port n).ctlAnchor := by
  rcases tryMotion_cases s m r v with h | ⟨p, hp, h⟩ <;> rw [h]
  by_cases hn : n = m
  · subst hn
    obtain ⟨-, -, frame⟩ := Port.placeMotion_spec hp
    rw [State.setMachine_port, State.setPort_port, frame]
  · rw [State.setMachine_port, State.setPort_port_other s p hn]

theorem cancelFollow_others (s : State) (m : MachineId) : OthersKept s (cancelFollow s m) m := by
  intro n hn
  unfold cancelFollow dropLeader
  rw [changeMachine_port, changeMachine_machine_other _ _ hn]
  exact tryMotion_others s m .stop 0 n hn

/-- A follow cancelled leaves a FREE record without leader, its lock counts 0 (R107). -/
theorem cancelFollow_machine (s : State) (m : MachineId) :
    (cancelFollow s m).machine m
      = { ((s.machine m).countsCleared) with
          leader := .noLeader, control := .free, lastSpeed := ((tryStop s m).machine m).lastSpeed } := by
  unfold cancelFollow dropLeader
  rw [changeMachine_machine, tryStop, tryMotion_record]
  rfl

theorem cancelFollow_ends {s : State} {m : MachineId} (h : (s.machine m).following = true) : MotionsEnd s (cancelFollow s m) := by
  refine .of_others (cancelFollow_others s m) ⟨?_, ?_⟩
  · rw [cancelFollow_machine]
    exact ⟨rfl, rfl, rfl, rfl, ⟨rfl, rfl⟩, .inr rfl, fun k => by simp [h] at k, fun _ k => by simp [h] at k⟩
  · unfold cancelFollow dropLeader
    rw [changeMachine_port]
    exact tryMotion_ctlAnchor s m m .stop 0

theorem cancelFollowsOf_ends (s : State) (m : MachineId) :
    MotionsEnd s (cancelFollowsOf s m) ∧ ((cancelFollowsOf s m).machine m).following = false := by
  have each (t : State) (f : MachineId) : MotionsEnd t (match (t.machine f).leader with
      | .machine l _ => if f = m ∨ l = m then cancelFollow t f else t
      | .noLeader => t
      | .timeline => t) := by
    split
    · rename_i hl
      split
      · exact cancelFollow_ends (by simp [MachineRec.following, hl])
      · exact .refl t
    · exact .refl t
    · exact .refl t
  constructor
  · exact foldl_rel .refl (fun _ _ _ => .trans) each Unit8.all s
  · refine foldl_establishes (A := fun _ => True) (Q := fun x : State => (x.machine m).following = false) (a := m)
      (fun _ _ _ => trivial) (fun t f _ => (each t f m).1.following) (fun t _ => ?_) (Unit8.mem_all m) trivial
    split
    · rw [if_pos (.inl rfl), cancelFollow_machine]; rfl
    · rename_i hl; simp [MachineRec.following, hl]
    · rename_i hl; simp [MachineRec.following, hl]

theorem configurationEndsLocate_kept (before s : State) (m n : MachineId) :
    (configurationEndsLocate before s m).machine n = s.machine n ∧ (configurationEndsLocate before s m).port n = s.port n := by
  unfold configurationEndsLocate reportLocateFailure
  split
  · split <;> exact ⟨rfl, rfl⟩
  · exact ⟨rfl, rfl⟩

/-- A configured machine's change of label mode ends its locate and the follows it has a part in. -/
theorem endMotionOfMode_ends (before : State) {s : State} {m : MachineId} (hm : (s.machine m).configured = true) :
    MotionsEnd s (endMotionOfMode before s m) ∧ ((endMotionOfMode before s m).machine m).following = false
      ∧ ((endMotionOfMode before s m).machine m).control ≠ .locating := by
  have ended : MotionsEnd s (changeMachine s m MachineRec.locateEnded) := by
    refine .of_others (fun n hn => ⟨changeMachine_port .., changeMachine_machine_other s _ hn⟩) ⟨?_, by rw [changeMachine_port]⟩
    rw [changeMachine_machine]
    refine ⟨rfl, rfl, rfl, rfl, ⟨rfl, rfl⟩, ?_, id, fun k => by simp [hm] at k⟩
    unfold MachineRec.locateEnded
    dsimp only
    split
    · exact .inr rfl
    · exact .inl rfl
  have reported : MotionsEnd (changeMachine s m MachineRec.locateEnded)
      (configurationEndsLocate before (changeMachine s m MachineRec.locateEnded) m) := by
    intro n
    obtain ⟨machine, port⟩ := configurationEndsLocate_kept before (changeMachine s m MachineRec.locateEnded) m n
    rw [machine, port]
    exact ⟨.refl _, rfl⟩
  obtain ⟨follows, free⟩ := cancelFollowsOf_ends (configurationEndsLocate before (changeMachine s m MachineRec.locateEnded) m) m
  refine ⟨(ended.trans reported).trans follows, free, ?_⟩
  have here : ((changeMachine s m MachineRec.locateEnded).machine m).control ≠ .locating := by
    rw [changeMachine_machine]
    unfold MachineRec.locateEnded
    dsimp only
    split
    · simp
    · assumption
  rcases (reported.trans follows m).1.control with k | k
  · unfold endMotionOfMode; rw [k]; exact here
  · unfold endMotionOfMode; rw [k]; simp

/-! ### SET STANDARD (R2, R98) -/

/-- The record that SET STANDARD gives a machine, before the locates and follows end. -/
def MachineRec.entersDefault (x : MachineRec) (std : Standard) : MachineRec :=
  if x.configured then x.inMode std.defaultMode else x.withMode std.defaultMode

theorem enterDefaultMode_machine (s : State) (std : Standard) (m : MachineId) :
    (enterDefaultMode s std m).machine m = (s.machine m).entersDefault std := by
  unfold enterDefaultMode MachineRec.entersDefault
  split
  · rw [enterMode_machine]
  · simp [updateMachine]

theorem enterDefaultMode_others (s : State) (std : Standard) (m : MachineId) : OthersKept s (enterDefaultMode s std m) m := by
  unfold enterDefaultMode
  split
  · exact enterMode_others s m _
  · exact fun n hn => ⟨rfl, State.setMachine_machine_other s _ hn⟩

theorem enterDefaultModes_machine (s : State) (std : Standard) (m : MachineId) :
    (Unit8.all.foldl (fun x m => enterDefaultMode x std m) s).machine m = (s.machine m).entersDefault std
      ∧ ((s.machine m).configured = true →
          ((Unit8.all.foldl (fun x m => enterDefaultMode x std m) s).port m).ctlAnchor = none) := by
  refine foldl_at (P := fun x => x.machine m = s.machine m)
    (Q := fun x : State => x.machine m = (s.machine m).entersDefault std
      ∧ ((s.machine m).configured = true → (x.port m).ctlAnchor = none)) (a := m)
    (fun x n hn hx => ?_) (fun x hx => ⟨?_, fun hc => ?_⟩) (fun x n hn hx => ?_) Unit8.all_nodup (Unit8.mem_all m) rfl
  · rw [(enterDefaultMode_others x std n m hn.symm).2, hx]
  · rw [enterDefaultMode_machine, hx]
  · unfold enterDefaultMode
    rw [if_pos (by rw [hx]; exact hc)]
    simp [enterMode, Port.anchorCleared, Port.ctlCleared]
  · rw [(enterDefaultMode_others x std n m hn.symm).1, (enterDefaultMode_others x std n m hn.symm).2]; exact hx

/-- The Machine Controller's part of SET STANDARD, machine by machine. -/
theorem setStandardMachines_spec (s : State) (std : Standard) :
    MachinesOnly s (setStandardMachines s std) ∧ NoticesKept s (setStandardMachines s std)
      ∧ ∀ m, MotionEnded ((s.machine m).entersDefault std) ((setStandardMachines s std).machine m)
          ∧ ((s.machine m).configured = true → ((setStandardMachines s std).machine m).following = false
              ∧ ((setStandardMachines s std).machine m).control ≠ .locating
              ∧ ((setStandardMachines s std).port m).ctlAnchor = none) := by
  have entered := enterDefaultModes_machine s std
  have only : MachinesOnly s (Unit8.all.foldl (fun x m => enterDefaultMode x std m) s) := by
    refine MachinesOnly.foldl (fun x m => ?_) _ s
    unfold enterDefaultMode
    split
    · exact enterMode_machinesOnly x m _
    · exact .setMachine x m _
  have notices : NoticesKept s (Unit8.all.foldl (fun x m => enterDefaultMode x std m) s) := by
    refine foldl_rel .refl (fun _ _ _ => .trans) (fun x m => ?_) _ s
    refine .of_console ?_
    unfold enterDefaultMode
    split <;> rfl
  unfold setStandardMachines
  generalize Unit8.all.foldl (fun x m => enterDefaultMode x std m) s = v at entered only notices
  have each (x : State) (m : MachineId) : MotionsEnd x (if (x.machine m).configured then endMotionOfMode s x m else x) := by
    split
    · rename_i hc; exact (endMotionOfMode_ends s hc).1
    · exact .refl x
  have fold := foldl_rel MotionsEnd.refl (fun _ _ _ => MotionsEnd.trans) each
  have ended : MachineStep v (Unit8.all.foldl (fun x m => if (x.machine m).configured then endMotionOfMode s x m else x) v) := by
    refine MachineStep.foldl (fun x m => ?_) _ v
    split
    · exact endMotionOfMode_step s x m
    · exact .refl x
  refine ⟨only.trans ended.only, notices.trans ended.notices, fun m => ⟨?_, fun hc => ?_⟩⟩
  · rw [← (entered m).1]; exact (fold Unit8.all v m).1
  · have configured : (v.machine m).configured = true := by
      rw [(entered m).1]; unfold MachineRec.entersDefault; rw [if_pos hc]; exact hc
    rw [← and_assoc]
    refine ⟨?_, (fold Unit8.all v m).2.trans ((entered m).2 hc)⟩
    refine foldl_establishes (A := fun x : State => (x.machine m).configured = true)
      (Q := fun x : State => (x.machine m).following = false ∧ (x.machine m).control ≠ .locating) (a := m)
      (fun x n hx => ((each x n m).1.configured).trans hx) (fun x n _ hx => ?_) (fun x hx => ?_) (Unit8.mem_all m) configured
    · refine ⟨(each x n m).1.following hx.1, ?_⟩
      rcases (each x n m).1.control with k | k <;> rw [k]
      · exact hx.2
      · simp
    · rw [if_pos hx]
      exact (endMotionOfMode_ends s hx).2

/-! ### The statement -/

theorem setOrigin_refusals {s : State} {q : RequestMessage} {rest : List RequestMessage} {l : Label}
    (h : HeadIs s q rest (.setOrigin l)) :
    (labelInRange (timelineMode s) l = false → Refuses .setOrigin s q rest .badTimecode)
      ∧ ∀ p advanced, consoleLabel (timelineMode s) l = some (p, advanced) →
        (s.run.phase ≠ .idle → Refuses .setOrigin s q rest .busy)
          ∧ (s.run.phase = .idle → s.store.events ≠ [] → Refuses .setOrigin s q rest .listNotEmpty)
          ∧ (s.run.phase = .idle → s.store.events = [] →
            exec .setOrigin s = .next
              (replied q rest (if advanced then .adjusted else .ok) (labelBytes (labelOf (timelineMode s) p))
                { s with timeline := { s.timeline with origin := p } })) := by
  have served := exec_served (c := .setOrigin) h rfl rfl
  refine ⟨fun hl => refuses_of served ?_, fun p advanced hl => ⟨fun hb => refuses_of served ?_, fun hi he => refuses_of served ?_,
    fun hi he => served.trans ?_⟩⟩
  · unfold answerSetOrigin convertRecord
    rw [dequeued_timelineMode, convert_bad hl]
  · unfold answerSetOrigin convertRecord
    rw [dequeued_timelineMode, convert_of_label hl]
    simp [setOriginTo, runIdle, hb]
  · unfold answerSetOrigin convertRecord
    rw [dequeued_timelineMode, convert_of_label hl]
    simp [setOriginTo, runIdle, hi, he]
  · unfold answerSetOrigin convertRecord
    rw [dequeued_timelineMode, convert_of_label hl]
    simp only [setOriginTo, runIdle, dequeued_run, hi, dequeued_store, he]
    rfl

theorem setRecorder_answers {s : State} {q : RequestMessage} {rest : List RequestMessage} {r : Option MachineId}
    (h : HeadIs s q rest (.setRecorder r)) :
    (∀ m, r = some m → (s.machine m).configured = false → Refuses .setRecorder s q rest .notConfigured)
      ∧ ((∀ m, r = some m → (s.machine m).configured = true) →
        (s.run.phase ≠ .idle → Refuses .setRecorder s q rest .busy)
          ∧ (s.run.phase = .idle → s.store.events ≠ [] → Refuses .setRecorder s q rest .listNotEmpty)
          ∧ (s.run.phase = .idle → s.store.events = [] →
            exec .setRecorder s = .next
              (replied q rest .ok (machineOrNone r ++ u8 (timelineMode { s with recorder := r }).code)
                { s with recorder := r, timeline := { s.timeline with origin := 0 } }))) := by
  have served := exec_served (c := .setRecorder) h rfl rfl
  have known (hk : ∀ m, r = some m → (s.machine m).configured = true) : recorderConfigured (dequeued s rest) r = true := by
    cases r with
    | none => rfl
    | some m => exact hk m rfl
  refine ⟨fun m hm hc => refuses_of served ?_, fun hk => ⟨fun hb => refuses_of served ?_, fun hi he => refuses_of served ?_,
    fun hi he => served.trans ?_⟩⟩
  · subst hm
    simp [answerSetRecorder, recorderConfigured, hc]
  · simp [answerSetRecorder, known hk, runIdle, hb]
  · simp [answerSetRecorder, known hk, runIdle, hi, he]
  · simp only [answerSetRecorder, known hk, runIdle, dequeued_run, hi, dequeued_store, he]
    rfl

theorem retime_timeline (s : State) (std : Standard) (t : Nat) :
    (retime s std t).timeline
      = { s.timeline with
          standard := std, origin := 0, refState := .absent, goodCount := 0, refFieldStart := none, refBroken := false
          clockBase := t, tickParity := (s.timeline.field.map FieldStart.parity).getD s.timeline.tickParity } := by
  have parity : (match s.timeline.field with | some f => f.parity | none => s.timeline.tickParity)
      = (s.timeline.field.map FieldStart.parity).getD s.timeline.tickParity := by cases s.timeline.field <;> rfl
  rw [← parity]
  rfl

theorem setStandardTimeline_frame (s : State) (std : Standard) (t : Nat) :
    setStandardTimeline s std t
        = { s with now := max s.now t, timeline := (retime s std t).timeline, console := (setStandardTimeline s std t).console }
      ∧ OnlyNotices s (setStandardTimeline s std t)
      ∧ (s.timeline.refState = .onReference → Noticed (setStandardTimeline s std t) (.reference .lost)) := by
  unfold setStandardTimeline
  split
  · exact ⟨rfl, raiseNotice_onlyNotices (retime s std t) _, fun _ => raiseNotice_noticed _ _⟩
  · rename_i ho; exact ⟨rfl, rfl, fun k => absurd k ho⟩

/-- Settles O16. -/
theorem domainRequestsNeedIdleEmptyList : Obligations.DomainRequestsNeedIdleEmptyList := by
  intro s q rest
  refine ⟨fun l => setOrigin_refusals, fun r => setRecorder_answers, fun v elapsed h => ?_⟩
  have served := exec_served (c := .setStandard elapsed) h rfl rfl
  have named (hv : v ≤ 1) : ∃ std, standardOf? v = some std := by
    match v, hv with
    | 0, _ => exact ⟨_, rfl⟩
    | 1, _ => exact ⟨_, rfl⟩
  refine ⟨fun hv => refuses_of served ?_, fun hv hb => refuses_of served ?_, fun hv hi he => refuses_of served ?_,
    fun std hstd hi he => ?_⟩
  · have none : standardOf? v = none := by
      match v, hv with
      | n + 2, _ => rfl
    simp [answerSetStandard, none]
  · obtain ⟨std, hstd⟩ := named hv
    simp [answerSetStandard, hstd, runIdle, hb]
  · obtain ⟨std, hstd⟩ := named hv
    simp [answerSetStandard, hstd, runIdle, hi, he]
  · obtain ⟨frame, link, lost⟩ := setStandardTimeline_frame (dequeued s rest) std (s.now + elapsed)
    obtain ⟨only, notices, machines⟩ := setStandardMachines_spec (setStandardTimeline (dequeued s rest) std (s.now + elapsed)) std
    have answer : answerSetStandard v (s.now + elapsed) (dequeued s rest)
        = ⟨setStandardMachines (setStandardTimeline (dequeued s rest) std (s.now + elapsed)) std, .ok, []⟩ := by
      simp [answerSetStandard, hstd, runIdle, hi, he]
    rw [answer] at served
    have old (m : MachineId) : (setStandardTimeline (dequeued s rest) std (s.now + elapsed)).machine m = s.machine m := by
      rw [frame]; rfl
    simp only [old] at machines
    refine ⟨_, served, ?_⟩
    generalize setStandardTimeline (dequeued s rest) std (s.now + elapsed) = u at *
    generalize setStandardMachines u std = v at *
    refine ⟨⟨only.2.inbound.trans link.inbound, ?_, only.2.transfer.trans link.transfer, only.2.overrun.trans link.overrun⟩,
      ?_, fun m hc => ?_, fun m hc hf => ?_, fun ho => ?_, ?_, ?_, ?_, ?_, ?_, ?_⟩
    · show v.console.replies ++ _ = _
      rw [only.2.replies, link.replies]; rfl
    · show v.timeline = _
      rw [only.timeline, frame]
      exact retime_timeline (dequeued s rest) std _
    · obtain ⟨ended, done⟩ := machines m
      obtain ⟨free, control, anchor⟩ := done hc
      unfold MachineRec.entersDefault at ended
      rw [if_pos hc] at ended
      exact ⟨ended.params, ended.position, ended.quality, ended.marks.1, ended.marks.2, free, control, anchor⟩
    · have ended := (machines m).1
      unfold MachineRec.entersDefault at ended
      rw [if_neg (by simp [hc])] at ended
      exact ended.still hc hf
    · exact notices.noticed _ rfl (lost ho)
    · exact only.recorder.trans (by rw [frame]; rfl)
    · exact only.run.trans (by rw [frame]; rfl)
    · exact only.store.trans (by rw [frame]; rfl)
    · exact only.effects.trans (by rw [frame]; rfl)
    · exact only.cues.trans (by rw [frame]; rfl)
    · exact only.runParams.trans (by rw [frame]; rfl)

end Sys2Proof.Machine
end

section
/-! SUPPORT and the statements of the console link (R179 to R188, R194, R195): transfers, receipt, notices and unknown
requests. -/

namespace Sys2Proof.Machine

/-! ### Transfers (R179, R184) -/

/-- Settles O17. -/
theorem transferStartChoosesOldest : Obligations.TransferStartChoosesOldest := by
  intro s idle
  have start : exec .transferStart s
      = .next (s.updateConsole (fun c => { c with transfer := some (newTransfer s), sent := [] })) := by
    dsimp only [exec, execTransferStart]
    rw [idle]
  rw [start]
  refine ⟨fun r rs hr hq => ?_, fun n ns hr hq hn => ?_, fun hr hq hn => ?_, fun hr => ?_⟩
  · simp [newTransfer, hr, chooseOutgoing, hq, State.updateConsole]
  · simp [newTransfer, hr, chooseOutgoing, hq, hn, State.updateConsole]
  · simp [newTransfer, hr, chooseOutgoing, hq, hn, State.updateConsole]
  · simp [newTransfer, hr, State.updateConsole]

/-! ### Receipt (R180, R181) -/

theorem joinInbound_room {s : State} (h : s.console.inbound.length < 8) (q : RequestMessage) :
    joinInbound s q = s.updateConsole (fun c => { c with inbound := c.inbound ++ [q] }) := by
  unfold joinInbound; exact if_pos h

theorem joinInbound_full {s : State} (h : 8 ≤ s.console.inbound.length) (q : RequestMessage) :
    joinInbound s q = setOverrun s := by
  unfold joinInbound; exact if_neg (by simp only [Config.inboundCapacity]; omega)

/-- Settles O18. -/
theorem receivedRequestJoinsQueue : Obligations.ReceivedRequestJoinsQueue := by
  intro s x hx dead received
  have run {bytes : List Byte} (whole : isWhole bytes = true) :
      exec (.requestReceived bytes) s = .next (markReceived (receiveMessage s bytes) x bytes.length) := by
    simp [exec, execRequestReceived, hx, dead, received, whole]
  refine ⟨fun n code tag params hn room => ?_, fun n code tag params hn full => ?_, fun b => ?_, ?_⟩
  · rw [run (by simp [isWhole, hn]), receiveMessage, joinInbound_room room, markReceived, x.sentBytes_eq]; rfl
  · rw [run (by simp [isWhole, hn]), receiveMessage, joinInbound_full full, markReceived, x.sentBytes_eq]; rfl
  · rw [run (by simp [isWhole]), receiveMessage, markReceived, x.sentBytes_eq]; rfl
  · rw [run (by simp [isWhole]), receiveMessage, markReceived, x.sentBytes_eq]; rfl

/-! ### The end of a transfer (R180, R184, R186) -/

theorem removeOutgoing_eq (c : ConsolePort) (x : Transfer) (whole : Bool) :
    removeOutgoing c x whole =
      { c with
        replies := if x.source = .replyQueue ∧ whole = true then c.replies.drop 1 else c.replies
        notices := if x.source = .noticeQueue ∧ (whole = true ∨ superseded c.notices = true)
          then c.notices.drop 1 else c.notices } := by
  unfold removeOutgoing
  cases x.source with
  | noQueue => simp
  | replyQueue => cases whole <;> simp
  | noticeQueue => cases whole <;> cases superseded c.notices <;> simp

/-- The end of a transfer after what was still to be received. -/
theorem execTransferEnd_eq {s : State} {x : Transfer} (hx : s.console.transfer = some x) (bytes : List Byte) {u : State}
    (hu : (if x.received || x.dead then s else receiveRest s bytes) = u) :
    exec (.transferEnd bytes) s
      = .next { u with console := { u.console with
          replies := if x.source = .replyQueue ∧ (decide (x.outgoing.length ≤ x.clocked + bytes.length)) = true
            then u.console.replies.drop 1 else u.console.replies
          notices := if x.source = .noticeQueue ∧ ((decide (x.outgoing.length ≤ x.clocked + bytes.length)) = true
              ∨ superseded u.console.notices = true) then u.console.notices.drop 1 else u.console.notices
          transfer := none
          sent := dataOut x.outgoing (x.clocked + bytes.length) } } := by
  dsimp only [exec, execTransferEnd]
  rw [hx]
  dsimp only
  rw [hu, ← x.sentBytes_eq]
  simp only [State.updateConsole, removeOutgoing_eq]

/-- Settles O19. -/
theorem transferEndRemovesMessageSent : Obligations.TransferEndRemovesMessageSent := by
  intro s x bytes hx
  refine ⟨fun h => execTransferEnd_eq hx bytes ?_, fun received dead => ?_⟩
  · rcases h with h | h | h <;> simp [h, receiveRest]
  have rest {u : State} (hu : receiveRest s bytes = u) := execTransferEnd_eq hx bytes (u := u) (by simp [received, dead, hu])
  refine ⟨fun n body hb short => ?_, fun n body hb one more => ?_, fun body hb => ?_, fun n code tag params surplus hb hn => ?_⟩
  · refine rest (u := setOverrun s) ?_
    subst hb
    simp [receiveRest, Nat.not_le.mpr short]
  · refine rest (u := setOverrun s) ?_
    subst hb
    obtain ⟨b, tail, rfl⟩ := List.exists_cons_of_length_pos more
    simp [receiveRest, one, receiveMessage]
  · refine rest (u := s) ?_
    subst hb
    simp [receiveRest, receiveMessage]
  · have joined : receiveRest s bytes = joinInbound s ⟨code, tag, params⟩ := by
      subst hb
      have fits : n.toNat ≤ (code :: tag :: (params ++ surplus)).length := by simp [hn]
      have cut : (code :: tag :: (params ++ surplus)).take n.toNat = code :: tag :: params := by simp [hn]
      rw [receiveRest, if_pos fits, cut, receiveMessage]
    refine ⟨fun room => ?_, fun full => ?_⟩
    · exact rest (joined.trans (joinInbound_room room _))
    · exact rest (joined.trans (joinInbound_full full _))

/-! ### Notices (R185 to R187) -/

theorem eraseFirst_at {α : Type} {p : α → Bool} {a z : List α} {o : α} (ho : p o = true) (ha : ∀ x ∈ a, p x = false) :
    eraseFirst p (a ++ o :: z) = a ++ z := by
  induction a with
  | nil => simp [eraseFirst, ho]
  | cons x xs ih =>
    obtain ⟨hx, hxs⟩ := List.forall_mem_cons.mp ha
    simp [eraseFirst, hx, ih hxs]

theorem Notice.isStateOf_false_iff (m : MachineId) (n : Notice) : n.isStateOf m = false ↔ n.stateMachine? ≠ some m := by
  rw [← Bool.not_eq_true, Notice.isStateOf_iff]

/-- A notice that finds no unread one to replace joins the tail, or is dropped when the queue is full. -/
theorem ConsolePort.place_fresh {c : ConsolePort} {n : Notice}
    (h : ∀ m, n.stateMachine? = some m → ∀ o ∈ c.notices.drop c.noticesOnLink, o.stateMachine? ≠ some m) :
    (c.notices.length < 32 → c.place n = { c with notices := c.notices ++ [n] })
      ∧ (32 ≤ c.notices.length → c.place n = { c with overflow := true }) := by
  have tail : c.place n = if c.notices.length < Config.noticeCapacity then { c with notices := c.notices ++ [n] }
      else { c with overflow := true } := by
    unfold ConsolePort.place
    split
    · rename_i m hm
      rw [if_neg]
      simp only [List.any_eq_true, not_exists, not_and, Bool.not_eq_true]
      exact fun o ho => (Notice.isStateOf_false_iff m o).mpr (h m hm o ho)
    · rfl
  rw [tail]
  exact ⟨fun hlt => if_pos hlt, fun hle => if_neg (Nat.not_lt.mpr hle)⟩

/-- A MACHINE_STATE takes the place of the first unread one for its machine. -/
theorem ConsolePort.place_newer {c : ConsolePort} {n o : Notice} {m : MachineId} {a z : List Notice}
    (hn : n.stateMachine? = some m) (queue : c.notices.drop c.noticesOnLink = a ++ o :: z) (ho : o.stateMachine? = some m)
    (ha : ∀ x ∈ a, x.stateMachine? ≠ some m) :
    c.place n = { c with notices := c.notices.take c.noticesOnLink ++ a ++ z ++ [n] } := by
  have unread : (c.notices.drop c.noticesOnLink).any (Notice.isStateOf m) = true := by
    rw [queue]; simp [(Notice.isStateOf_iff m o).mpr ho]
  unfold ConsolePort.place
  rw [hn]
  dsimp only
  rw [if_pos unread, queue, eraseFirst_at ((Notice.isStateOf_iff m o).mpr ho)
    (fun x hx => (Notice.isStateOf_false_iff m x).mpr (ha x hx))]
  simp

/-- Settles O20. -/
theorem noticesAreQueuedInOrder : Obligations.NoticesAreQueuedInOrder := by
  refine ⟨fun s => ?_, fun s n => ?_⟩
  · simp only [State.attention, Bool.and_eq_true, Bool.not_eq_true', Bool.and_eq_false_iff, List.isEmpty_eq_false_iff]
  · have raised : raiseNotice s n = { s with console := s.console.place n } := rfl
    rw [raised]
    refine ⟨fun hn room => ?_, fun hn full => ?_, fun m hm => ⟨fun fresh => ?_, fun a o z queue ho ha => ?_⟩⟩
    · rw [(ConsolePort.place_fresh (by simp [hn])).1 room]
    · rw [(ConsolePort.place_fresh (by simp [hn])).2 full]
    · have none : ∀ k, n.stateMachine? = some k → ∀ o ∈ s.console.notices.drop s.console.noticesOnLink, o.stateMachine? ≠ some k := by
        rw [hm]; rintro k hk; cases hk; exact fresh
      exact ⟨fun room => by rw [(ConsolePort.place_fresh none).1 room], fun full => by rw [(ConsolePort.place_fresh none).2 full]⟩
    · rw [ConsolePort.place_newer hm queue ho ha]

/-! ### Unknown requests (R182, R195) -/

/-- Settles O21. -/
theorem unknownRequestAnsweredBadRequest : Obligations.UnknownRequestAnsweredBadRequest := by
  intro s q rest n listed
  have unlisted : ¬ listed → formRequest q = none := by
    intro h
    unfold formRequest
    split <;> try omega
    rfl
  refine ⟨unlisted, fun head h => ?_⟩
  have unknown : formRequest q = none := h.elim unlisted id
  have run : exec .unknownRequest s
      = if replyRoom s then .next (replyTo q (refuseWith (dequeued s rest) .badRequest)) else .next s := by
    simp [exec, execUnknownRequest, head, unknown]
  rw [Refuses, run]
  refine ⟨fun room => ?_, fun full => ?_⟩
  · have held : replyRoom s = true := decide_eq_true room
    rw [held]; rfl
  · have shut : replyRoom s = false := decide_eq_false (Nat.not_lt.mpr full)
    rw [shut]; rfl

end Sys2Proof.Machine
end

section
/-! SUPPORT and the statements of the Event Store's requests (R38 to R68): a change written for the head request, and the
lookups. -/

namespace Sys2Proof.Machine

/-! ### The list without the head request -/

section dequeued
variable (s : State) (rest : List RequestMessage)

theorem dequeued_keyBefore (a b : Event) : keyBefore (dequeued s rest) a b = keyBefore s a b := rfl

theorem dequeued_insertByKey (e : Event) (l : List Event) : insertByKey (dequeued s rest) e l = insertByKey s e l := by
  induction l with
  | nil => rfl
  | cons x xs ih => simp only [insertByKey, dequeued_keyBefore, ih]

theorem dequeued_listOrder (l : List Event) : listOrder (dequeued s rest) l = listOrder s l := by
  induction l with
  | nil => rfl
  | cons x xs ih => simp only [listOrder, dequeued_insertByKey, ih]

theorem dequeued_overlapTest (changed : List Record) (l : List Event) :
    overlapTest (dequeued s rest) changed l = overlapTest s changed l := by
  induction l with
  | nil => rfl
  | cons x xs ih =>
    have first : firstOverlap (dequeued s rest) changed x.record = firstOverlap s changed x.record := rfl
    simp only [overlapTest, first, ih]

theorem dequeued_rippleMoves (c : Change) : rippleMoves (dequeued s rest) c = rippleMoves s c := rfl

theorem dequeued_changeTests (known : Bool) (c : Change) : changeTests (dequeued s rest) known c = changeTests s known c := by
  have valid : validity (dequeued s rest) = validity s := rfl
  have moved : rippleTest (dequeued s rest) = rippleTest s := rfl
  have day : dayRec (dequeued s rest) = dayRec s := rfl
  have free : lowestFree (dequeued s rest) = lowestFree s := rfl
  unfold changeTests
  simp only [valid, moved, day, free, dequeued_rippleMoves, dequeued_overlapTest, dequeued_store]

theorem dequeued_ordered (l : List Event) : Ordered (dequeued s rest) l = Ordered s l := rfl

end dequeued

/-! ### A change written -/

/-- A change that passes its tests is written. -/
theorem applyChange_passed {s : State} {known : Bool} {c : Change} (tests : changeTests s known c = none) :
    applyChange s known c = .ok ⟨writeChange s c, changeHandle s c, (reportedShift s c).1, (rippleMoves s c).1.length,
      (reportedShift s c).2⟩ := by
  unfold applyChange; rw [tests]

/-- The reply placed after a change shows the rest of the console link as it was. -/
theorem written_replied {s t : State} {q : RequestMessage} {rest : List RequestMessage} (h : ListWritten (dequeued s rest) t)
    (result : Result) (data : List Byte) :
    Replied s (replyTo q ⟨t, result, data⟩) q rest result data
      ∧ (replyTo q ⟨t, result, data⟩).console
          = { s.console with inbound := rest, replies := s.console.replies ++ [⟨q.code, q.tag, result, data⟩] }
      ∧ replyTo q ⟨t, result, data⟩
          = { s with store := t.store, run := { s.run with cursor := t.run.cursor },
                     console := (replyTo q ⟨t, result, data⟩).console } := by
  have console : (replyTo q ⟨t, result, data⟩).console
      = { s.console with inbound := rest, replies := s.console.replies ++ [⟨q.code, q.tag, result, data⟩] } := by
    rw [replyTo_replied, h]; rfl
  refine ⟨⟨?_, ?_, ?_, ?_⟩, console, ?_⟩
  · rw [console]
  · rw [console]
  · rw [console]
  · rw [console]
  · rw [replyTo_replied, h]; rfl

theorem writeEvents_perm (s : State) (l : List Event) :
    (writeEvents s l).store.events.Perm l ∧ Ordered s (writeEvents s l).store.events :=
  ⟨listOrder_perm s l, listOrder_ordered s l⟩

/-- The change of one event rewrites the target and moves the ripple's events, or writes nothing. -/
theorem target_rewritten {s : State} {q : RequestMessage} {rest : List RequestMessage} {e : Event} {r : Record} {c : Change}
    (he : c.target = some e) (hr : c.result = some r) (result : Result) (data : List Byte) :
    TargetRewritten s (replyTo q ⟨writeChange (dequeued s rest) c, result, data⟩) e r c := by
  obtain ⟨-, console, frame⟩ := written_replied (q := q) (writeChange_written (dequeued s rest) c) result data
  have store : (replyTo q ⟨writeChange (dequeued s rest) c, result, data⟩).store = (writeChange (dequeued s rest) c).store := rfl
  have write : writeChange (dequeued s rest) c
      = if e.record = r ∧ (rippleMoves s c).1 = [] then dequeued s rest
        else writeEvents (dequeued s rest) (rewritten e r :: survivors s c) := by
    unfold writeChange; rw [he, hr]; rfl
  have cursor : (writeChange (dequeued s rest) c).run.cursor = s.run.cursor := by
    rw [write]; split <;> rfl
  refine ⟨fun same still => ?_, fun changed => ?_, ?_, ?_⟩
  · rw [store, write, if_pos ⟨same, still⟩]; rfl
  · rw [store, write, if_neg changed]
    exact ⟨rfl, (writeEvents_perm (dequeued s rest) _).2, (writeEvents_perm (dequeued s rest) _).1⟩
  · rw [cursor] at frame; exact frame
  · rw [console]

/-- A change of one event that passes its tests, as its request answers it. -/
theorem changeTo_target {s : State} {q : RequestMessage} {rest : List RequestMessage} {e : Event} {r : Record}
    {ripple : Option RippleRequest} {advanced : Bool} {c : Instr}
    (served : exec c s = .next (replyTo q (changeTo (dequeued s rest) (some e) true r ripple advanced)))
    (tests : changeTests s true ⟨some e, some (nudged s r), ripple⟩ = none) :
    ∃ t res data, exec c s = .next t ∧ res.served = true
      ∧ Replied s t q rest res (data ++ if ripple.isSome then
          i32 (reportedShift s ⟨some e, some (nudged s r), ripple⟩).1
            ++ u16 (rippleMoves s ⟨some e, some (nudged s r), ripple⟩).1.length else [])
      ∧ TargetRewritten s t e (nudged s r) ⟨some e, some (nudged s r), ripple⟩ := by
  have passed := applyChange_passed ((dequeued_changeTests s rest true _).trans tests)
  have answer : changeTo (dequeued s rest) (some e) true r ripple advanced = _ :=
    show (match applyChange (dequeued s rest) true ⟨some e, some (nudged s r), ripple⟩ with
      | .ok a => changeAnswer a ripple advanced (nudgesOf s r)
      | .error x => refuse (dequeued s rest) x) = _ by rw [passed]
  rw [answer] at served
  exact ⟨_, _, _, served, okOr_served _, (written_replied (writeChange_written (dequeued s rest) _) _ _).1,
    target_rewritten rfl rfl _ _⟩

theorem withTarget_found {s : State} {h : Nat} {e : Event} (he : findEvent s h = some e) (hs : e.state ≠ .running)
    (f : Event → Answer) : withTarget s h f = f e := by
  unfold withTarget
  rw [he]
  cases hst : e.state with
  | opened => simp [hst]
  | running => exact absurd hst hs
  | performed => simp [hst]

/-- Settles O24. -/
theorem changeRequestsRewriteTarget : Obligations.ChangeRequestsRewriteTarget := by
  intro s q rest e r h he hs tests done
  have target (f : Event → Answer) : withTarget (dequeued s rest) h f = f e :=
    withTarget_found (s := dequeued s rest) he hs f
  have finish {c : Instr} {r' : Record} (advanced : Bool) (hr : r = r')
      (served : exec c s = .next (replyTo q (changeEvent (dequeued s rest) e r' advanced))) : done c := by
    subst hr
    obtain ⟨t, res, data, run, hres, replied, written⟩ := changeTo_target served tests
    exact ⟨t, res, data, run, hres, by simpa using replied, written⟩
  have plain {mode : EditMode} (hm : mode = .noMode ∨ mode = .place) : mode.plain = true := by
    rcases hm with rfl | rfl <;> rfl
  refine ⟨fun mode d hm hd hr => finish false hr ?_, fun d hd hr => finish false hr ?_, fun d x hd hx hr => finish false hr ?_,
    fun d n hd hn hr => finish false hr ?_, fun x hd hr => finish false hr ?_, fun mode l p advanced hm hd hl hr => finish advanced hr ?_⟩
  · have served := exec_served (c := .trimIn) hd rfl rfl
    rwa [answerTrimIn, if_pos (plain hm), target] at served
  · have served := exec_served (c := .slip) hd rfl rfl
    rwa [answerSlip, if_pos ⟨rfl, .inl rfl⟩, target] at served
  · have served := exec_served (c := .slip) hd rfl rfl
    rw [answerSlip, if_pos ⟨rfl, .inr rfl⟩, target] at served
    simp only [slipped, hx, if_neg (show ¬ (2 = 1) by decide), Option.map_some] at served
    exact served
  · have served := exec_served (c := .trimTransition) hd rfl rfl
    rw [answerTrimTransition, target] at served
    simpa [hn] using served
  · have served := exec_served (c := .setSplit) hd rfl rfl
    rw [answerSetSplit, target] at served
    have split : presentUnless true 0 x = if x = 0 then none else some x := by unfold presentUnless; by_cases hx : x = 0 <;> simp [hx]
    rwa [split] at served
  · have served := exec_served (c := .move) hd rfl rfl
    rw [answerMove, convertRecord, dequeued_timelineMode, convert_of_label hl] at served
    dsimp only at served
    rwa [if_pos (plain hm), target] at served

/-- Settles O25. -/
theorem trimOutMovesRecordOut : Obligations.TrimOutMovesRecordOut := by
  intro s q rest mode e h d hm hd he hs r c tests
  have served := exec_served (c := .trimOut) hd rfl rfl
  have ripple : trimOutRipple (dequeued s rest) mode e d = if mode = .ripple then some ⟨endOffset s e.record, d⟩ else none := by
    cases mode <;> rfl
  rw [answerTrimOut, if_neg hm, withTarget_found (s := dequeued s rest) he hs, ripple] at served
  obtain ⟨t, res, data, run, hres, replied, written⟩ := changeTo_target (r := trimmedOut e.record d) served tests
  refine ⟨t, res, data, run, hres, ?_, written⟩
  cases mode <;> exact replied

/-! ### ADD (R55 to R59) -/

theorem find_of_handle {l : List Event} {e : Event} (he : e ∈ l) (once : ∀ x ∈ l, x.handle = e.handle → x = e) :
    l.find? (fun x => x.handle == e.handle) = some e := by
  cases hf : l.find? (fun x => x.handle == e.handle) with
  | none => exact absurd (List.find?_eq_none.mp hf e he) (by simp)
  | some x => rw [once x (List.mem_of_find?_eq_some hf) (by simpa using List.find?_some hf)]

/-- Numbering by place changes no handle, so it finds the same event, numbered. -/
theorem numberFrom_find {l : List Event} {h : Nat} {x : Event} (hx : l.find? (fun e => e.handle == h) = some x) (k : Nat) :
    ∃ n, (numberFrom k l).find? (fun e => e.handle == h) = some { x with insertion := n } := by
  induction l generalizing k with
  | nil => simp at hx
  | cons y ys ih =>
    unfold numberFrom
    cases hy : y.handle == h with
    | true =>
      simp only [List.find?_cons, hy, Option.some.injEq] at hx
      subst hx
      exact ⟨k, by simp only [List.find?_cons, hy]⟩
    | false =>
      simp only [List.find?_cons, hy] at hx ⊢
      exact ih hx (k + 1)

theorem survivors_of_add (s : State) (r : Record) (ripple : Option RippleRequest) :
    survivors s ⟨none, some r, ripple⟩ = s.store.events.map (movedEvent s ⟨none, some r, ripple⟩) := by
  rw [survivors_eq]
  unfold bystanders
  rw [List.filter_eq_self.mpr fun e _ => by simp]

/-- What the write of an ADD leaves. -/
theorem writeChange_add {s : State} {h : Nat} (hf : lowestFree s = some h) (r : Record) (ripple : Option RippleRequest) :
    ∃ events : List Event, Ordered s events
      ∧ events.Perm (newEvent s h r :: s.store.events.map (movedEvent s ⟨none, some r, ripple⟩))
      ∧ (s.store.counter + 1 < 4294967296 →
          writeChange s ⟨none, some r, ripple⟩ = { s with store := ⟨events, s.store.counter + 1⟩ })
      ∧ (4294967296 ≤ s.store.counter + 1 →
          writeChange s ⟨none, some r, ripple⟩ = renumber { s with store := ⟨events, s.store.counter⟩ })
      ∧ ∃ n, findEvent (writeChange s ⟨none, some r, ripple⟩) h = some { newEvent s h r with insertion := n } := by
  have write : writeChange s ⟨none, some r, ripple⟩
      = advanceCounter { s with store := ⟨listOrder s (newEvent s h r :: s.store.events.map (movedEvent s ⟨none, some r, ripple⟩)),
          s.store.counter⟩ } := by
    unfold writeChange
    dsimp only
    rw [hf, survivors_of_add]
    rfl
  have perm := listOrder_perm s (newEvent s h r :: s.store.events.map (movedEvent s ⟨none, some r, ripple⟩))
  have order := listOrder_ordered s (newEvent s h r :: s.store.events.map (movedEvent s ⟨none, some r, ripple⟩))
  generalize listOrder s (newEvent s h r :: s.store.events.map (movedEvent s ⟨none, some r, ripple⟩)) = events at *
  have only : ∀ x ∈ events, x.handle = h → x = newEvent s h r := by
    intro x hx hh
    rcases List.mem_cons.mp (perm.subset hx) with rfl | hm
    · rfl
    · obtain ⟨k, hk, rfl⟩ := List.mem_map.mp hm
      rw [movedEvent_handle] at hh
      exact absurd hh ((lowestFree_spec hf).2 k hk)
  have mem : newEvent s h r ∈ events := perm.symm.subset (List.mem_cons_self ..)
  rw [write]
  refine ⟨events, order, perm, fun hlt => if_pos hlt, fun hle => if_neg (Nat.not_lt.mpr hle), ?_⟩
  unfold advanceCounter
  split
  · exact ⟨s.store.counter, find_of_handle (e := newEvent s h r) mem only⟩
  · exact numberFrom_find (find_of_handle (e := newEvent s h r) mem only) 0

/-- An ADD whose positions are formed and whose bytes are known adds the record they make. -/
theorem answerAdd_record {s : State} {mode : EditMode} {b : RecordBlock} {p : AddPositions} {k : Kind} {ts : TrackSet}
    {colour : Bool} (hmode : mode = .place ∨ mode = .ripple)
    (hp : (if b.hasPositions then labelPositions s b else markPositions s b) = .ok p) (hk : kindOf? b.kind = some k)
    (hts : tracksOf? b.tracks = some ts) (hc : flagOf? b.colour = some colour) :
    answerAdd mode b s = addRecord s mode b (newRecord b k ts colour p) p.advanced := by
  have allowed : addMode mode = true := by rcases hmode with rfl | rfl <;> rfl
  unfold answerAdd
  split at hp
  · rename_i labels
    rw [if_pos labels, hp]
    simp only [addFrom, allowed, hk, hts, hc]
  · rename_i marks
    rw [if_neg marks]
    simp only [addFrom, allowed, hk, hts, hc, hp]

theorem changeTo_passed {s : State} {target : Option Event} {known advanced : Bool} {r : Record} {ripple : Option RippleRequest}
    {c : Change} {e : Event} (hc : c = ⟨target, some (nudged s r), ripple⟩) (tests : changeTests s known c = none)
    (found : findEvent (writeChange s c) (changeHandle s c) = some e) :
    ∃ more, changeTo s target known r ripple advanced
      = ⟨writeChange s c, okOr (advanced || (nudgesOf s r).any (fun k => 0 < k) || (reportedShift s c).2),
          u16 e.handle ++ u32 e.insertion ++ more⟩ := by
  subst hc
  unfold changeTo
  rw [applyChange_passed tests]
  simp only [changeAnswer, found, changedData, List.append_assoc]
  exact ⟨_, rfl⟩

/-- Settles O23. -/
theorem addWritesNewEvent : Obligations.AddWritesNewEvent := by
  intro s q rest mode b p k ts colour h hd hmode hp hk hts hc hcues hfree r c tests
  have served := exec_served (c := .add) hd rfl rfl
  rw [answerAdd_record (s := dequeued s rest) hmode hp hk hts hc, addRecord, hcues] at served
  obtain ⟨events, order, perm, room, full, n, found⟩ :=
    writeChange_add (s := dequeued s rest) hfree r (addRipple s mode (newRecord b k ts colour p))
  have handle : changeHandle (dequeued s rest) c = h := by
    show (lowestFree (dequeued s rest)).getD 0 = h
    rw [show lowestFree (dequeued s rest) = some h from hfree]; rfl
  obtain ⟨more, answer⟩ := changeTo_passed (s := dequeued s rest) (c := c) (advanced := p.advanced) rfl
    ((dequeued_changeTests s rest true c).trans tests) (by rw [handle]; exact found)
  have run : exec .add s = .next (replyTo q ⟨writeChange (dequeued s rest) c, okOr (p.advanced
      || (nudgesOf s (newRecord b k ts colour p)).any (fun n => 0 < n) || (reportedShift s c).2), u16 h ++ u32 n ++ more⟩) := by
    rw [served]
    exact congrArg (fun a => Host.Outcome.next (replyTo q a)) answer
  obtain ⟨replied, console, frame⟩ := written_replied (q := q) (writeChange_written (dequeued s rest) c)
    (okOr (p.advanced || (nudgesOf s (newRecord b k ts colour p)).any (fun n => 0 < n) || (reportedShift s c).2))
    (u16 h ++ u32 n ++ more)
  refine ⟨_, _, run, replied, fun hlt => ?_, fun hle => ⟨events, order, perm, ?_⟩, ⟨n, more, rfl, ?_⟩, frame, ?_⟩
  · have written : writeChange (dequeued s rest) c = _ := room hlt
    rw [written]
    exact ⟨rfl, order, perm, rfl⟩
  · have written : writeChange (dequeued s rest) c = _ := full hle
    rw [written]
    exact (renumber_spec { dequeued s rest with store := ⟨events, (dequeued s rest).store.counter⟩ }).1
  · exact List.mem_of_find?_eq_some found
  · rw [console]

end Sys2Proof.Machine
end

section
/-! The statements of DELETE, CLEAR LIST and the lookups (R38 to R44, R67, R68). -/

namespace Sys2Proof.Machine

/-! ### DELETE and CLEAR LIST (R44, R67, R68) -/

/-- What the write of a DELETE leaves. -/
theorem writeChange_delete (s : State) (e : Event) (ripple : Option RippleRequest) :
    (writeChange s ⟨some e, none, ripple⟩).store.events = listOrder s (survivors s ⟨some e, none, ripple⟩)
      ∧ ((writeChange s ⟨some e, none, ripple⟩).store.events = [] →
          (writeChange s ⟨some e, none, ripple⟩).store.counter = 0
            ∧ (writeChange s ⟨some e, none, ripple⟩).run.cursor = { s.run.cursor with insertion := none })
      ∧ ((writeChange s ⟨some e, none, ripple⟩).store.events ≠ [] →
          (writeChange s ⟨some e, none, ripple⟩).store.counter = s.store.counter
            ∧ (writeChange s ⟨some e, none, ripple⟩).run.cursor = s.run.cursor) := by
  have write : writeChange s ⟨some e, none, ripple⟩ = whenEmptied (writeEvents s (survivors s ⟨some e, none, ripple⟩)) := rfl
  have events : (writeEvents s (survivors s ⟨some e, none, ripple⟩)).store.events
      = listOrder s (survivors s ⟨some e, none, ripple⟩) := rfl
  rw [write]
  unfold whenEmptied
  rw [events]
  split
  · rename_i empty
    exact ⟨rfl, fun _ => ⟨rfl, rfl⟩, fun k => absurd (List.isEmpty_iff.mp empty) k⟩
  · rename_i some
    exact ⟨rfl, fun k => absurd (List.isEmpty_iff.mpr k) some, fun _ => ⟨rfl, rfl⟩⟩

/-- A DELETE that passes its tests, as its request answers it. -/
theorem deleteEvent_passed {s : State} {mode : EditMode} {e : Event}
    (tests : changeTests s true ⟨some e, none, if mode = .ripple then some ⟨endOffset s e.record, -(e.record.extent : Int)⟩ else none⟩
      = none) :
    let c : Change :=
      ⟨some e, none, if mode = .ripple then some ⟨endOffset s e.record, -(e.record.extent : Int)⟩ else none⟩
    deleteEvent s mode e = ⟨writeChange s c, okOr (reportedShift s c).2,
      u16 e.handle ++ u32 (startOffset s e.record) ++ u32 (endOffset s e.record)
        ++ if mode = .ripple then i32 (reportedShift s c).1 ++ u16 (rippleMoves s c).1.length else []⟩ := by
  intro c
  have ripple : deleteRipple s mode e = if mode = .ripple then some ⟨endOffset s e.record, -(e.record.extent : Int)⟩ else none := by
    cases mode <;> rfl
  unfold deleteEvent
  rw [ripple, applyChange_passed tests]
  cases mode <;> rfl

/-- Settles O26. -/
theorem deleteAndClearListRemoveEvents : Obligations.DeleteAndClearListRemoveEvents := by
  constructor
  · intro s q rest mode e h hm hd he hs c tests
    have served := exec_served (c := .delete) hd rfl rfl
    rw [answerDelete, if_neg hm, withTarget_found (s := dequeued s rest) he hs,
      deleteEvent_passed ((dequeued_changeTests s rest true c).trans tests)] at served
    have handle : e.handle = h := by simpa using List.find?_some he
    obtain ⟨replied, console, frame⟩ := written_replied (q := q) (writeChange_written (dequeued s rest) c)
      (okOr (reportedShift s c).2)
      (u16 e.handle ++ u32 (startOffset s e.record) ++ u32 (endOffset s e.record)
        ++ if mode = .ripple then i32 (reportedShift s c).1 ++ u16 (rippleMoves s c).1.length else [])
    obtain ⟨events, emptied, left⟩ := writeChange_delete (dequeued s rest) e c.ripple
    have perm : (writeChange (dequeued s rest) c).store.events.Perm ((bystanders s c).map (movedEvent s c)) := by
      have ordered : (writeChange (dequeued s rest) c).store.events = _ := events
      rw [ordered]; exact listOrder_perm _ _
    have order : Ordered s (writeChange (dequeued s rest) c).store.events := by
      have ordered : (writeChange (dequeued s rest) c).store.events = _ := events
      rw [ordered]; exact listOrder_ordered (dequeued s rest) _
    refine ⟨_, _, served, okOr_served _, replied, perm, order, ?_, emptied, left, frame,
      (congrArg ConsolePort.notices console).trans rfl⟩
    refine List.find?_eq_none.mpr fun x hx => ?_
    obtain ⟨k, hk, rfl⟩ := List.mem_map.mp (perm.subset hx)
    have other : k.handle ≠ e.handle := by
      have := (List.mem_filter.mp hk).2
      simpa [c] using this
    rw [movedEvent_handle, ← handle]
    simpa using other
  · intro s q rest hd
    have served := exec_served (c := .clearList) hd rfl rfl
    refine ⟨fun hb => refuses_of served ?_, fun hi => served.trans ?_⟩
    · simp [answerClearList, runIdle, hb]
    · have idle : runIdle (dequeued s rest) = true := (runIdle_iff s).mpr hi
      rw [answerClearList, if_pos idle]
      rfl

/-! ### Lookups (R38 to R42) -/

theorem placeData_at {s : State} {n : Nat} (hn : n < s.store.events.length) :
    placeData s (some n) = u16 s.store.events[n].handle ++ u32 (startOffset s s.store.events[n].record) ++ u16 n := by
  unfold placeData; simp [hn]

theorem placeData_none {s : State} {place : Option Nat} (h : ∀ n, place = some n → s.store.events.length ≤ n) :
    ∃ data, placeData s place = u16 65535 ++ data := by
  have nothing : (place.bind fun n => (s.store.events[n]?).map (fun e => (n, e))) = none := by
    cases place with
    | none => rfl
    | some n => simp [List.getElem?_eq_none (h n rfl)]
  unfold placeData
  rw [nothing]
  simp only [List.append_assoc]
  exact ⟨_, rfl⟩

/-- Settles O27. -/
theorem lookupsReadTheList : Obligations.LookupsReadTheList := by
  intro s q rest
  have next {h : Nat} (hd : HeadIs s q rest (.next h)) := exec_served (c := .next) hd rfl rfl
  have previous {h : Nat} (hd : HeadIs s q rest (.previous h)) := exec_served (c := .previous) hd rfl rfl
  have ordinal (h : Nat) : ordinalOf (dequeued s rest) h = ordinalOf s h := rfl
  refine ⟨fun h e hd he => ?_, fun h hd he => ?_, fun n hn hd => ?_, fun n hd hn => ?_, fun hd => ?_, fun h n hn hh hd ho => ?_,
    fun hn hd => ?_, fun h n hn hh hd ho => ?_, fun n hn hd => ?_, fun h hh hd => ?_, fun h hh hd => ?_,
    fun h hh hd ho => refuses_of (next hd) ?_, fun h hh hd ho => refuses_of (previous hd) ?_⟩
  · rw [exec_served (c := .readEvent) hd rfl rfl, answerReadEvent, dequeued_findEvent, he]; rfl
  · refine refuses_of (exec_served (c := .readEvent) hd rfl rfl) ?_
    rw [answerReadEvent, dequeued_findEvent, he]
  · rw [exec_served (c := .readOrdinal) hd rfl rfl, answerReadOrdinal, dequeued_store, List.getElem?_eq_getElem hn]; rfl
  · refine refuses_of (exec_served (c := .readOrdinal) hd rfl rfl) ?_
    rw [answerReadOrdinal, dequeued_store, List.getElem?_eq_none hn]
  · exact exec_served (c := .count) hd rfl rfl
  · rw [next hd, answerNext, if_neg hh, ordinal, ho]
    dsimp only
    rw [placeData_at (s := dequeued s rest) hn]; rfl
  · rw [next hd, answerNext, if_pos rfl, placeData_at (s := dequeued s rest) hn]; rfl
  · rw [previous hd, answerPrevious, if_neg hh, ordinal, ho]
    dsimp only [before]
    rw [placeData_at (s := dequeued s rest) hn]; rfl
  · have hlt : n < s.store.events.length := by omega
    rw [previous hd, answerPrevious, if_pos rfl, dequeued_store, hn, before, placeData_at (s := dequeued s rest) hlt]; rfl
  · rw [next hd, answerNext]
    rcases hh with ⟨rfl, none⟩ | ⟨hh, ho⟩
    · obtain ⟨data, hdata⟩ := placeData_none (s := dequeued s rest) (place := some 0)
        (fun n hn => by rw [dequeued_store, none]; exact Nat.zero_le n)
      exact ⟨data, by rw [if_pos rfl, hdata]; rfl⟩
    · obtain ⟨data, hdata⟩ := placeData_none (s := dequeued s rest) (place := some (s.store.events.length - 1 + 1))
        (fun n hn => by rw [dequeued_store]; cases hn; omega)
      exact ⟨data, by rw [if_neg hh, ordinal, ho]; dsimp only; rw [hdata]; rfl⟩
  · rw [previous hd, answerPrevious]
    rcases hh with ⟨rfl, none⟩ | ⟨hh, ho⟩
    · obtain ⟨data, hdata⟩ := placeData_none (s := dequeued s rest) (place := before 0) (fun n hn => by simp [before] at hn)
      exact ⟨data, by rw [if_pos rfl, dequeued_store, none]; exact congrArg _ (congrArg _ (congrArg _ hdata))⟩
    · obtain ⟨data, hdata⟩ := placeData_none (s := dequeued s rest) (place := before 0) (fun n hn => by simp [before] at hn)
      exact ⟨data, by rw [if_neg hh, ordinal, ho]; dsimp only; rw [hdata]; rfl⟩
  · rw [answerNext, if_neg hh, ordinal, ho]
  · rw [answerPrevious, if_neg hh, ordinal, ho]

/-- A lookup of a position on a known track, and on an unknown one. -/
theorem lookupAt_eq {s : State} {l : Label} {p : Nat} {advanced : Bool} (hl : consoleLabel (timelineMode s) l = some (p, advanced))
    (n : Nat) (data : Track → Nat → List Byte) :
    (trackOf? n = none → lookupAt s l n data = refuseWith s .badRequest)
      ∧ ∀ t, trackOf? n = some t → lookupAt s l n data
          = ⟨s, okOr advanced, data t p ++ if advanced then labelBytes (labelOf (timelineMode s) p) else []⟩ := by
  unfold lookupAt convertRecord
  rw [convert_of_label hl]
  refine ⟨fun h => ?_, fun t h => ?_⟩ <;> dsimp only <;> rw [h]
  rfl

/-- Settles O28. -/
theorem positionLookupsFindCoveringEvent : Obligations.PositionLookupsFindCoveringEvent := by
  intro s q rest l n p advanced hl answer
  have lookup (data) := lookupAt_eq (s := dequeued s rest) hl n data
  have found (t : Track) : coveringEvent (dequeued s rest) t p = coveringEvent s t p := rfl
  refine ⟨fun h => ⟨fun hd => ?_, fun hd => ?_⟩, fun tr h hc => ⟨fun hd => ?_, fun hd => ?_⟩,
    fun tr e h hc => ⟨fun hd => ?_, fun hd => ?_⟩⟩
  · exact refuses_of (exec_served (c := .findAt) hd rfl rfl) ((lookup _).1 h)
  · exact refuses_of (exec_served (c := .matchFrame) hd rfl rfl) ((lookup _).1 h)
  · refine ⟨countOrNone none ++ u8 255, ?_⟩
    rw [exec_served (c := .findAt) hd rfl rfl, answerFindAt, (lookup _).2 tr h, findAtData, found, hc]
    simp only [countOrNone, List.append_assoc]
    rfl
  · refine ⟨u32 Config.absentFieldCount ++ noSide ++ noSide, ?_⟩
    rw [exec_served (c := .matchFrame) hd rfl rfl, answerMatchFrame, (lookup _).2 tr h, matchFrameData, found, hc]
    rfl
  · rw [exec_served (c := .findAt) hd rfl rfl, answerFindAt, (lookup _).2 tr h, findAtData, found, hc]
    rfl
  · intro j side toSource
    have run : exec .matchFrame s = .next (answer (u16 e.handle ++ i32 j ++ toSource ++ fromSide s e.record j)) := by
      rw [exec_served (c := .matchFrame) hd rfl rfl, answerMatchFrame, (lookup _).2 tr h, matchFrameData, found, hc]
      rfl
    refine ⟨fun x hx hj => ?_, fun hx => ?_⟩
    · rw [run, fromSide, hx]
      dsimp only
      rw [if_pos hj]
      rfl
    · have none : fromSide s e.record j = noSide := by
        unfold fromSide
        split
        · rename_i x hsome
          exact if_neg (Int.not_lt.mpr (hx.resolve_left (by simp [hsome])))
        · rfl
      rw [run, none, noSide, ← List.append_assoc]

end Sys2Proof.Machine
end

section
/-! PROOF. Shared arithmetic: the folded difference (R12), and labels and positions, which convert back and forth (R6 to R10). -/

namespace Sys2Proof.Machine

/-! ### The folded difference (R12) -/

section fold

variable {day half : Nat} (even : day = 2 * half) {d : Int}

include even

theorem fold_above (above : d > half) (inDay : d < day) : fold day d = d - day := by
  have whole : d % (day : Int) = d := Int.emod_eq_of_lt (by omega) inDay
  rw [fold, whole, if_pos (by omega)]

theorem fold_below (below : d ≤ -half) (inDay : -(day : Int) < d) : fold day d = d + day := by
  have whole : d % (day : Int) = d + day := by
    rw [← Int.add_emod_right, Int.emod_eq_of_lt (by omega) (by omega)]
  rw [fold, whole, if_neg (by omega)]

theorem fold_within (above : -(half : Int) < d) (below : d ≤ half) : fold day d = d := by
  rcases Int.lt_or_le d 0 with negative | positive
  · have whole : d % (day : Int) = d + day := by
      rw [← Int.add_emod_right, Int.emod_eq_of_lt (by omega) (by omega)]
    rw [fold, whole, if_pos (by omega)]
    omega
  · have whole : d % (day : Int) = d := Int.emod_eq_of_lt positive (by omega)
    rw [fold, whole, if_neg (by omega)]

theorem fold_range (positive : 0 < day) (d : Int) : -(half : Int) < fold day d ∧ fold day d ≤ half := by
  have low := Int.emod_nonneg d (by omega : (day : Int) ≠ 0)
  have high := Int.emod_lt_of_pos d (by omega : (0 : Int) < day)
  unfold fold
  split <;> omega

end fold

theorem LabelMode.day_even (mode : LabelMode) : mode.day = 2 * (mode.day / 2) := by cases mode <;> rfl

/-- Settles O55: the two differences lie less than a day apart, and each of the three cases says in which multiple of the day. -/
theorem foldedDifferenceLiesInHalfDay : Obligations.FoldedDifferenceLiesInHalfDay := by
  intro mode a b ha hb
  have even := mode.day_even
  refine ⟨fun above => fold_above even above (by omega), fun below => fold_below even below (by omega),
    fold_within even, ?_, ?_, even⟩
  · exact (fold_range even (by omega) _).1
  · exact (fold_range even (by omega) _).2

/-! ### Labels (R6 to R10) -/

theorem labelOf_inRange {mode : LabelMode} {n : Nat} (h : n < mode.day) : labelInRange mode (labelOf mode n) = true := by
  rw [labelInRange_iff]
  cases mode with
  | df =>
    have inDay : labelNumber .df (n / 2) < 2592000 := by
      have := blockLabel_lt (Nat.mod_lt (n / 2) (by decide : 17982 > 0))
      have : n < 5178816 := h
      rw [labelNumber_df]
      omega
    simp only [labelOf, LabelMode.rate]
    omega
  | ndf | m25 =>
    simp only [LabelMode.day] at h
    simp only [labelOf, LabelMode.rate, labelNumber]
    omega

/-- The number that a label's elements spell, of hours, minutes, seconds and frames of 30. -/
def spelled (l : Label) : Nat := ((l.hours * 60 + l.minutes) * 60 + l.seconds) * 30 + l.frames

/-- The drop-frame count is the number spelled, less 2 labels for each minute that is not a tenth one (R7). -/
theorem frameNumber_df {l : Label} (hs : l.seconds < 60) (hf : l.frames < 30) :
    frameNumber .df l = spelled l - 2 * (spelled l / 1800 - spelled l / 1800 / 10) := by
  have minutes : spelled l / 1800 = l.hours * 60 + l.minutes := by
    unfold spelled
    omega
  rw [minutes]
  rfl

theorem spelled_labelOf_df (p : Nat) : spelled (labelOf .df p) = labelNumber .df (p / 2) := by
  simp only [spelled, labelOf, LabelMode.rate]
  omega

theorem labelOf_eq_of_spelled {p : Nat} {l : Label} (hl : labelInRange .df l = true) (field : p % 2 + 1 = l.field)
    (number : labelNumber .df (p / 2) = spelled l) : labelOf .df p = l := by
  obtain ⟨hh, hm, hs, hf, -⟩ := (labelInRange_iff .df l).1 hl
  obtain ⟨h, m, sec, f, field'⟩ := l
  simp only [LabelMode.rate, spelled] at *
  rw [labelOf, field, number]
  simp only [LabelMode.rate, Label.mk.injEq, and_true]
  omega

/-- Within ten minutes, the labels less the two dropped ones of each minute passed give the frame back. -/
theorem blockLabel_less_dropped (m : Nat) : blockLabel m - 2 * (blockLabel m / 1800) = m := by
  rw [blockLabel_div]
  unfold blockLabel
  split <;> omega

theorem blockLabel_of_minute {minute place : Nat} (hp : place < 1800) (kept : minute ≠ 0 → 2 ≤ place) :
    blockLabel (1798 * minute + place) = 1800 * minute + place := by
  unfold blockLabel
  omega

theorem frameNumber_labelOf_df (p : Nat) : frameNumber .df (labelOf .df p) = p / 2 := by
  have bound := blockLabel_lt (Nat.mod_lt (p / 2) (by decide : 17982 > 0))
  have less := blockLabel_less_dropped (p / 2 % 17982)
  have seconds : (labelOf .df p).seconds < 60 := Nat.mod_lt _ (by decide)
  have frames : (labelOf .df p).frames < 30 := Nat.mod_lt _ (by decide)
  rw [frameNumber_df seconds frames, spelled_labelOf_df, labelNumber_df]
  generalize blockLabel (p / 2 % 17982) = b at *
  omega

/-- A label that is not dropped has the frame number whose label number it spells. -/
theorem labelNumber_frameNumber_df {l : Label} (hl : labelInRange .df l = true) (hd : isDropped .df l = false) :
    labelNumber .df (frameNumber .df l) = spelled l := by
  obtain ⟨hh, hm, hs, hf, -⟩ := (labelInRange_iff .df l).1 hl
  have frames : l.frames < 30 := hf
  have place : l.seconds * 30 + l.frames < 1800 := by omega
  have minutes : spelled l = 18000 * ((l.hours * 60 + l.minutes) / 10)
      + 1800 * (l.minutes % 10) + (l.seconds * 30 + l.frames) := by
    unfold spelled
    omega
  have kept : l.minutes % 10 ≠ 0 → 2 ≤ l.seconds * 30 + l.frames := by
    intro minute
    simp only [isDropped, Bool.and_eq_false_iff, Bool.or_eq_false_iff, beq_eq_false_iff_ne, bne_eq_false_iff_eq] at hd
    omega
  have frame : frameNumber .df l = 17982 * ((l.hours * 60 + l.minutes) / 10)
      + (1798 * (l.minutes % 10) + (l.seconds * 30 + l.frames)) := by
    rw [frameNumber_df hs frames, minutes]
    omega
  have block : (1798 * (l.minutes % 10) + (l.seconds * 30 + l.frames)) < 17982 := by omega
  rw [labelNumber_df, frame, Nat.mul_add_mod, Nat.mul_add_div (by decide), Nat.mod_eq_of_lt block, Nat.div_eq_of_lt block,
    blockLabel_of_minute place kept, minutes]
  omega

theorem frameNumber_labelOf (mode : LabelMode) (p : Nat) : frameNumber mode (labelOf mode p) = p / 2 := by
  cases mode with
  | df => exact frameNumber_labelOf_df p
  | ndf | m25 =>
    simp only [frameNumber, labelOf, LabelMode.rate, labelNumber]
    omega

theorem labelOf_not_dropped (mode : LabelMode) (p : Nat) : isDropped mode (labelOf mode p) = false := by
  cases mode with
  | df => exact labelOf_df_not_dropped p
  | ndf => rfl
  | m25 => rfl

theorem labelOf_fieldNumber {mode : LabelMode} {l : Label} (hl : labelInRange mode l = true)
    (hd : isDropped mode l = false) : labelOf mode (fieldNumber mode l) = l := by
  cases mode with
  | df =>
    obtain ⟨-, -, -, -, field⟩ := (labelInRange_iff .df l).1 hl
    refine labelOf_eq_of_spelled hl (fieldNumber_mod_two field) ?_
    rw [fieldNumber_div_two field, labelNumber_frameNumber_df hl hd]
  | ndf => exact labelOf_fieldNumber_plain (by decide) hl
  | m25 => exact labelOf_fieldNumber_plain (by decide) hl

/-- Frame 2 of a dropped label's second is a label that is not dropped. -/
theorem advanced_kept {mode : LabelMode} {l : Label} (hl : labelInRange mode l = true) (hd : isDropped mode l = true) :
    labelInRange mode { l with frames := 2 } = true ∧ isDropped mode { l with frames := 2 } = false := by
  cases mode with
  | df =>
    rw [labelInRange_iff] at hl ⊢
    exact ⟨⟨hl.1, hl.2.1, hl.2.2.1, (by decide : 2 < 30), hl.2.2.2.2⟩, by simp [isDropped]⟩
  | ndf => cases hd
  | m25 => cases hd

/-- Settles O58: the frame of a position's label is the position's frame, and the label number of a kept label's frame is the number
that the label spells. -/
theorem labelsAndPositionsConvertBack : Obligations.LabelsAndPositionsConvertBack := by
  intro mode
  refine ⟨fun n hn => ?position, fun l hl hd => labelOf_fieldNumber hl hd, fun l hl hd => ?dropped⟩
  case position =>
    rw [consoleLabel_of_not_dropped (labelOf_inRange hn) (labelOf_not_dropped mode n), fieldNumber, frameNumber_labelOf]
    simp only [labelOf, Option.some.injEq, Prod.mk.injEq, and_true]
    omega
  case dropped =>
    obtain ⟨valid, kept⟩ := advanced_kept hl hd
    exact ⟨_, by simp only [consoleLabel, hl, hd, if_true], labelOf_fieldNumber valid kept⟩

end Sys2Proof.Machine
end

section
/-! PROOF. The stepper's closed form and its uses (R152 to R156). -/

namespace Sys2Proof.Machine

/-! ### The stepper (R152) -/

/-- A stepper that stands on the ramp loaded with a start, an advance q × N + r, a step count N and a bias, after some steps. -/
structure OnRamp (start q r : Int) (n : Nat) (bias : Int) (i : Nat) (t : Stepper) : Prop where
  step : t.step = i
  quotient : t.quotient = q
  remainder : t.remainder = r
  count : t.count = n
  low : 0 ≤ t.working
  high : t.working < (n : Int)
  balance : t.working - (t.output - start - q * (i : Int)) * (n : Int) = bias - (i : Int) * r

theorem Stepper.advance_working (t : Stepper) :
    t.advance.working = t.working - t.remainder + (if t.working - t.remainder < 0 then (t.count : Int) else 0) := by
  unfold Stepper.advance
  split
  · rfl
  · exact (Int.add_zero _).symm

theorem Stepper.advance_output (t : Stepper) :
    t.advance.output = t.output + t.quotient ∨ t.advance.output = t.output + t.quotient + 1 := by
  unfold Stepper.advance
  split
  · exact .inr rfl
  · exact .inl rfl

theorem OnRamp.advance {start q r bias : Int} {n i : Nat} {t : Stepper} (h : OnRamp start q r n bias i t)
    (hr : 0 ≤ r) (hn : r < (n : Int)) : OnRamp start q r n bias (i + 1) t.advance where
  step := by rw [Stepper.advance_step, h.step]
  quotient := by rw [Stepper.advance_quotient, h.quotient]
  remainder := by rw [Stepper.advance_remainder, h.remainder]
  count := by rw [Stepper.advance_count, h.count]
  low := by
    have := h.low
    rw [Stepper.advance_working, h.remainder, h.count]
    split <;> omega
  high := by
    have := h.high
    rw [Stepper.advance_working, h.remainder, h.count]
    split <;> omega
  balance := by
    have now := h.balance
    have turn := t.advance_balance
    rw [h.remainder, h.count, h.quotient] at turn
    rw [Int.natCast_succ]
    grind

/-- The output, from the balance of the working value: the ceiling counts the times N was added. -/
theorem OnRamp.output {start q r bias : Int} {n i : Nat} {t : Stepper} (h : OnRamp start q r n bias i t)
    (hr : 0 ≤ r) (hb : bias < (n : Int)) :
    t.output = start + q * (i : Int) + max 0 (-((bias - (i : Int) * r) / (n : Int))) := by
  have positive : (n : Int) ≠ 0 := by
    have := h.low
    have := h.high
    omega
  have carried : (bias - (i : Int) * r) / (n : Int) = -(t.output - start - q * (i : Int)) := by
    rw [← h.balance, Int.sub_eq_add_neg, ← Int.neg_mul, Int.add_mul_ediv_right _ _ positive,
      Int.ediv_eq_zero_of_lt h.low h.high, Int.zero_add]
  have below : (bias - (i : Int) * r) / (n : Int) < 1 := by
    refine Int.ediv_lt_of_lt_mul (by omega) ?_
    have := Int.mul_nonneg (Int.natCast_nonneg i) hr
    omega
  omega

section ramp

variable {start a w0 : Int} {n : Nat} (hn : 1 ≤ n)

theorem loadStepper_remainder (start a w0 : Int) : (loadStepper start a n w0).remainder = a % (n : Int) := by
  rw [Int.emod_def, Int.mul_comm]
  rfl

include hn

theorem loadStepper_ramp (low : 0 ≤ w0) (high : w0 < (n : Int)) (i : Nat) :
    OnRamp start (a / (n : Int)) (a % (n : Int)) n w0 i ((loadStepper start a n w0).advanceBy i) := by
  induction i with
  | zero => exact ⟨rfl, rfl, loadStepper_remainder start a w0, rfl, low, high, by simp [loadStepper]⟩
  | succ i ih => exact ih.advance (Int.emod_nonneg _ (by omega)) (Int.emod_lt_of_pos _ (by omega))

/-- The ramp's output after some steps. -/
theorem loadStepper_output (low : 0 ≤ w0) (high : w0 < (n : Int)) (i : Nat) :
    ((loadStepper start a n w0).advanceBy i).output
      = start + a / (n : Int) * (i : Int) + max 0 (-((w0 - (i : Int) * (a % (n : Int))) / (n : Int))) :=
  (loadStepper_ramp hn low high i).output (Int.emod_nonneg _ (by omega)) high

/-- After all N steps the ramp has made its whole advance. -/
theorem loadStepper_whole (low : 0 ≤ w0) (high : w0 < (n : Int)) :
    ((loadStepper start a n w0).advanceBy n).output = start + a := by
  have carried : (w0 - (n : Int) * (a % (n : Int))) / (n : Int) = -(a % (n : Int)) := by
    rw [Int.sub_eq_add_neg, ← Int.mul_neg, Int.add_mul_ediv_left _ _ (by omega), Int.ediv_eq_zero_of_lt low high,
      Int.zero_add]
  have remainder := Int.emod_nonneg a (by omega : (n : Int) ≠ 0)
  have parts := Int.ediv_mul_add_emod a n
  rw [loadStepper_output hn low high, carried]
  omega

end ramp

/-! ### The field stepper (R153 to R155) -/

theorem edgeRun_span (lines : Nat) (w : Wipe) :
    720 + ((edgeRun lines w).natAbs : Int) = 720 - min 0 (edgeRun lines w) - -(max 0 (edgeRun lines w)) := by
  omega

/-! ### The line stepper (R156) -/

theorem edgesFrom_at {c : Int} {n k : Nat} (t : Stepper) (hk : k < n) :
    (edgesFrom c n t)[k]? = some (clampColumn (c + (t.advanceBy k).output)) := by
  induction n generalizing k t with
  | zero => omega
  | succ n ih =>
    cases k with
    | zero => rfl
    | succ k => rw [edgesFrom, List.getElem?_cons_succ, ih _ (by omega), Stepper.advanceBy_advance, Stepper.advanceBy_succ]

/-- With the bias N − 1 the stepper rounds down. -/
theorem neg_div_of_full_bias {n : Int} (hn : 0 < n) (x : Int) : -((n - 1 - x) / n) = x / n := by
  have parts := Int.ediv_mul_add_emod x n
  have low := Int.emod_nonneg x (by omega : n ≠ 0)
  have high := Int.emod_lt_of_pos x hn
  have split : n - 1 - x = (n - 1 - x % n) + n * -(x / n) := by grind
  rw [split, Int.add_mul_ediv_left _ _ (by omega), Int.ediv_eq_zero_of_lt (by omega) (by omega)]
  omega

/-- On line k the edge stands at the offset ⌊k × sx / sy⌋. -/
theorem loadLine_output (w : Wipe) (hw : 1 ≤ w.sy) (k : Nat) :
    ((loadLine w).advanceBy k).output = (k : Int) * w.sx / (w.sy : Int) := by
  have positive : (0 : Int) < w.sy := by omega
  have parts := Int.ediv_mul_add_emod w.sx w.sy
  have remainder := Int.emod_nonneg w.sx (by omega : (w.sy : Int) ≠ 0)
  have split : (k : Int) * w.sx = (k : Int) * (w.sx % w.sy) + w.sy * (w.sx / w.sy * k) := by grind
  have carried : 0 ≤ (k : Int) * (w.sx % w.sy) / (w.sy : Int) :=
    Int.ediv_nonneg (Int.mul_nonneg (Int.natCast_nonneg k) remainder) (Int.le_of_lt positive)
  rw [loadLine, loadStepper_output hw (by omega) (by omega), neg_div_of_full_bias positive, split,
    Int.add_mul_ediv_left _ _ (by omega)]
  omega

/-- Settles O59: the balance of the working value gives the closed form by induction, and the other uses are loads of that ramp. -/
theorem stepperOutputsRoundedRamp : Obligations.StepperOutputsRoundedRamp := by
  refine ⟨fun start a n w0 hn low high => ?ramp, fun lines r held => rfl, fun lines r t j ht => ?next,
    fun lines r => ⟨fun hw => ?mix, fun w hw => ?wipe⟩, fun c n k w hk hw => ?edge, fun lines j manual r t => ?frame⟩
  case ramp =>
    have remainder : 0 ≤ (loadStepper start a n w0).remainder ∧ (loadStepper start a n w0).remainder < (n : Int) := by
      rw [loadStepper_remainder]
      exact ⟨Int.emod_nonneg _ (by omega), Int.emod_lt_of_pos _ (by omega)⟩
    refine ⟨rfl, rfl, remainder.1, remainder.2, rfl, rfl, rfl, fun i => ?_, loadStepper_whole hn low high⟩
    have now := loadStepper_ramp (start := start) (a := a) hn low high i
    have turn := ((loadStepper start a n w0).advanceBy i).advance_output
    rw [now.quotient] at turn
    refine ⟨?_, now.step, now.low, ?_, turn, fun rising => ?_⟩
    · rw [loadStepper_remainder]
      exact loadStepper_output hn low high i
    · rw [Stepper.advanceBy_succ, Stepper.advance_working, now.remainder, now.count, loadStepper_remainder]
    · have quotient : 0 ≤ a / (n : Int) := Int.ediv_nonneg rising (by omega)
      rw [Stepper.advanceBy_succ]
      omega
  case next => exact if_pos ht
  case mix => simp only [loadField, hw]
  case wipe =>
    simp only [loadField, hw, edgeRun_span]
    rfl
  case edge =>
    rw [edgesFrom_at _ hk, loadLine_output w hw]
    rfl
  case frame =>
    refine ⟨fun hw => ?_, fun w hw => ?_⟩ <;> simp only [frameOf, hw]
    rfl

end Sys2Proof.Machine
end

section
/-! PROOF. The spans of a line cover exactly the columns of B (R157 to R160). -/

namespace Sys2Proof.Machine

/-- A span covers a column. -/
def Span.Covers (x : Span) (c : Nat) : Prop := x.start ≤ c ∧ c < x.stop

/-- Spans that stand ascending, none empty, each ending where the next begins or before. -/
def Laid (l : List Span) : Prop := l.Pairwise (fun x y => x.stop ≤ y.start) ∧ ∀ x ∈ l, x.start < x.stop

/-! ### The intervals between boundaries (R160 step 2) -/

section intervals

variable (shows : Nat → Bool)

/-- What is shown switches at the boundaries alone, from `a` on. -/
def SwitchesAt (a : Nat) (l : List Nat) : Prop :=
  ∀ p c, a ≤ p → p ≤ c → (∀ e ∈ l, p < e → c < e) → shows c = shows p

variable {shows}

theorem SwitchesAt.rest {a b : Nat} {l : List Nat} (h : SwitchesAt shows a (a :: l)) (hab : a < b) :
    SwitchesAt shows b l := by
  intro p c hp hc between
  refine h p c (by omega) hc (List.forall_mem_cons.2 ⟨fun early => by omega, between⟩)

theorem intervalsOfB_ends {a : Nat} {l : List Nat} (sorted : (a :: l).Pairwise (· < ·)) {x : Span}
    (hx : x ∈ intervalsOfB shows (a :: l)) : x.start ∈ a :: l ∧ a ≤ x.start ∧ x.start < x.stop ∧ x.stop ∈ l := by
  induction l generalizing a with
  | nil => cases hx
  | cons b rest ih =>
    obtain ⟨first, later⟩ := List.pairwise_cons.1 sorted
    have ab := first b List.mem_cons_self
    have tail : x ∈ intervalsOfB shows (b :: rest) →
        x.start ∈ a :: b :: rest ∧ a ≤ x.start ∧ x.start < x.stop ∧ x.stop ∈ b :: rest := by
      intro inTail
      obtain ⟨start, low, full, stop⟩ := ih later inTail
      exact ⟨List.mem_cons_of_mem _ start, by omega, full, List.mem_cons_of_mem _ stop⟩
    unfold intervalsOfB at hx
    split at hx
    · rcases List.mem_cons.1 hx with rfl | inTail
      · exact ⟨List.mem_cons_self, Nat.le_refl a, ab, List.mem_cons_self⟩
      · exact tail inTail
    · exact tail hx

theorem intervalsOfB_laid {l : List Nat} (sorted : l.Pairwise (· < ·)) : Laid (intervalsOfB shows l) := by
  match l with
  | [] => exact ⟨.nil, fun x hx => by cases hx⟩
  | a :: l =>
    refine ⟨?_, fun x hx => (intervalsOfB_ends sorted hx).2.2.1⟩
    induction l generalizing a with
    | nil => exact .nil
    | cons b rest ih =>
      have later := (List.pairwise_cons.1 sorted).2
      unfold intervalsOfB
      split
      · exact List.pairwise_cons.2 ⟨fun y hy => (intervalsOfB_ends later hy).2.1, ih b later⟩
      · exact ih b later

/-- The intervals cover the columns from the first boundary to the last that are shown. -/
theorem intervalsOfB_covers {a : Nat} {l : List Nat} (sorted : (a :: l).Pairwise (· < ·))
    (switches : SwitchesAt shows a (a :: l)) (c : Nat) :
    (∃ x ∈ intervalsOfB shows (a :: l), x.Covers c) ↔ a ≤ c ∧ (∃ e ∈ l, c < e) ∧ shows c = true := by
  induction l generalizing a with
  | nil => simp [intervalsOfB]
  | cons b rest ih =>
    obtain ⟨first, later⟩ := List.pairwise_cons.1 sorted
    have ab := first b List.mem_cons_self
    have tail := ih later (switches.rest ab)
    have inFirst : a ≤ c → c < b → shows c = shows a := fun low high =>
      switches a c (Nat.le_refl a) low (List.forall_mem_cons.2 ⟨fun h => absurd h (Nat.lt_irrefl a),
        List.forall_mem_cons.2 ⟨fun _ => high, fun e he _ => Nat.lt_trans high ((List.pairwise_cons.1 later).1 e he)⟩⟩)
    have head : (∃ x ∈ intervalsOfB shows (a :: b :: rest), x.Covers c)
        ↔ (shows a = true ∧ a ≤ c ∧ c < b) ∨ ∃ x ∈ intervalsOfB shows (b :: rest), x.Covers c := by
      rw [intervalsOfB]
      split
      · rename_i shown
        simp [Span.Covers, shown]
      · rename_i hidden
        simp [hidden]
    rw [head, tail]
    rcases Nat.lt_or_ge c b with before | beyond
    · constructor
      · rintro (⟨shown, low, -⟩ | ⟨low, -⟩)
        · exact ⟨low, ⟨b, List.mem_cons_self, before⟩, (inFirst low before).trans shown⟩
        · omega
      · rintro ⟨low, -, shown⟩
        exact .inl ⟨(inFirst low before).symm.trans shown, low, before⟩
    · constructor
      · rintro (⟨-, -, high⟩ | ⟨low, ⟨e, he, high⟩, shown⟩)
        · omega
        · exact ⟨by omega, ⟨e, List.mem_cons_of_mem _ he, high⟩, shown⟩
      · rintro ⟨low, ⟨e, he, high⟩, shown⟩
        rcases List.mem_cons.1 he with rfl | inRest
        · omega
        · exact .inr ⟨beyond, ⟨e, inRest, high⟩, shown⟩

end intervals

/-! ### Merged spans (R160 step 3) -/

/-- Merging a further span in front: the head of the merged rest grows, or stands behind it. -/
theorem mergeSpans_cons (x : Span) (l : List Span) :
    (∃ y ys, mergeSpans l = y :: ys ∧ x.stop = y.start ∧ mergeSpans (x :: l) = ⟨x.start, y.stop⟩ :: ys)
      ∨ ((∀ y ∈ (mergeSpans l).head?, x.stop ≠ y.start) ∧ mergeSpans (x :: l) = x :: mergeSpans l) := by
  rcases merged : mergeSpans l with _ | ⟨y, ys⟩
  · exact .inr ⟨by simp, by simp [mergeSpans, merged]⟩
  · by_cases meets : x.stop = y.start
    · exact .inl ⟨y, ys, rfl, meets, by simp [mergeSpans, merged, meets]⟩
    · exact .inr ⟨by simpa using meets, by simp [mergeSpans, merged, meets]⟩

theorem mergeSpans_ends (l : List Span) :
    ∀ z ∈ mergeSpans l, (∃ x ∈ l, x.start = z.start) ∧ ∃ x ∈ l, x.stop = z.stop := by
  induction l with
  | nil => simp [mergeSpans]
  | cons x l ih =>
    have later : ∀ z ∈ mergeSpans l, (∃ y ∈ x :: l, y.start = z.start) ∧ ∃ y ∈ x :: l, y.stop = z.stop := by
      intro z hz
      obtain ⟨⟨y, hy, start⟩, v, hv, stop⟩ := ih z hz
      exact ⟨⟨y, List.mem_cons_of_mem _ hy, start⟩, v, List.mem_cons_of_mem _ hv, stop⟩
    rcases mergeSpans_cons x l with ⟨y, ys, merged, -, joined⟩ | ⟨-, apart⟩
    · rw [merged] at later
      obtain ⟨head, rest⟩ := List.forall_mem_cons.1 later
      rw [joined]
      exact List.forall_mem_cons.2 ⟨⟨⟨x, List.mem_cons_self, rfl⟩, head.2⟩, rest⟩
    · rw [apart]
      exact List.forall_mem_cons.2 ⟨⟨⟨x, List.mem_cons_self, rfl⟩, x, List.mem_cons_self, rfl⟩, later⟩

/-- Merged spans stand apart, and none is empty. -/
theorem mergeSpans_apart {l : List Span} (laid : Laid l) :
    (mergeSpans l).Pairwise (fun x y => x.stop < y.start) ∧ ∀ x ∈ mergeSpans l, x.start < x.stop := by
  obtain ⟨order, full⟩ := laid
  induction l with
  | nil => exact ⟨.nil, fun x hx => by cases hx⟩
  | cons x l ih =>
    obtain ⟨before, order⟩ := List.pairwise_cons.1 order
    obtain ⟨here, full⟩ := List.forall_mem_cons.1 full
    obtain ⟨apart, nonempty⟩ := ih order full
    rcases mergeSpans_cons x l with ⟨y, ys, merged, meets, joined⟩ | ⟨distinct, added⟩
    · rw [merged] at apart nonempty
      rw [joined]
      obtain ⟨behind, apart⟩ := List.pairwise_cons.1 apart
      obtain ⟨first, nonempty⟩ := List.forall_mem_cons.1 nonempty
      exact ⟨List.pairwise_cons.2 ⟨behind, apart⟩,
        List.forall_mem_cons.2 ⟨by show x.start < y.stop; omega, nonempty⟩⟩
    · rw [added]
      refine ⟨List.pairwise_cons.2 ⟨fun z hz => ?_, apart⟩, List.forall_mem_cons.2 ⟨here, nonempty⟩⟩
      have atOrBehind : ∀ z ∈ mergeSpans l, x.stop ≤ z.start := by
        intro z hz
        obtain ⟨⟨v, hv, start⟩, -⟩ := mergeSpans_ends l z hz
        rw [← start]
        exact before v hv
      rcases merged : mergeSpans l with _ | ⟨y, ys⟩
      · rw [merged] at hz
        cases hz
      · rw [merged] at hz distinct apart nonempty atOrBehind
        have := distinct y rfl
        have := atOrBehind y List.mem_cons_self
        have := nonempty y List.mem_cons_self
        rcases List.mem_cons.1 hz with rfl | inRest
        · omega
        · have := (List.pairwise_cons.1 apart).1 z inRest
          omega

theorem mergeSpans_covers {l : List Span} (laid : Laid l) (c : Nat) :
    (∃ z ∈ mergeSpans l, z.Covers c) ↔ ∃ x ∈ l, x.Covers c := by
  induction l with
  | nil => simp [mergeSpans]
  | cons x l ih =>
    have later : Laid l := ⟨(List.pairwise_cons.1 laid.1).2, (List.forall_mem_cons.1 laid.2).2⟩
    have here := laid.2 x List.mem_cons_self
    have nonempty := (mergeSpans_apart later).2
    simp only [List.mem_cons, exists_eq_or_imp, ← ih later]
    rcases mergeSpans_cons x l with ⟨y, ys, merged, meets, joined⟩ | ⟨-, added⟩
    · rw [merged] at nonempty
      have first := nonempty y List.mem_cons_self
      simp only [joined, merged, List.mem_cons, exists_eq_or_imp, ← or_assoc]
      refine or_congr_left ?_
      simp only [Span.Covers]
      omega
    · simp only [added, List.mem_cons, exists_eq_or_imp]

/-- Spans that stand apart take two boundaries each. -/
theorem apart_length_le {l : List Span} {b : List Nat} (apart : l.Pairwise (fun x y => x.stop < y.start))
    (full : ∀ x ∈ l, x.start < x.stop) (ends : ∀ x ∈ l, x.start ∈ b ∧ x.stop ∈ b) : 2 * l.length ≤ b.length := by
  have distinct : (l.flatMap (fun x => [x.start, x.stop])).Pairwise (· < ·) := by
    rw [List.pairwise_flatMap]
    refine ⟨fun x hx => by simpa using full x hx, apart.imp_of_mem fun hx hy behind => ?_⟩
    have := full _ hx
    have := full _ hy
    simp only [List.mem_cons, List.not_mem_nil, or_false]
    rintro a (rfl | rfl) c (rfl | rfl) <;> omega
  have inside : ∀ a ∈ l.flatMap (fun x => [x.start, x.stop]), a ∈ b := by
    intro a ha
    obtain ⟨x, hx, ha⟩ := List.mem_flatMap.1 ha
    simp only [List.mem_cons, List.not_mem_nil, or_false] at ha
    rcases ha with rfl | rfl
    · exact (ends x hx).1
    · exact (ends x hx).2
  have count := length_le_of_nodup (distinct.imp Nat.ne_of_lt) inside
  have pairs : ∀ l : List Span, (l.flatMap (fun x => [x.start, x.stop])).length = 2 * l.length := by
    intro l
    induction l with
    | nil => rfl
    | cons x xs ih => rw [List.flatMap_cons, List.length_append, ih, List.length_cons, List.length_cons, List.length_cons,
        List.length_nil, Nat.mul_succ, Nat.add_comm]
  exact pairs l ▸ count

/-! ### The boundaries of a line (R160 step 1) -/

theorem insertBoundary_zero (b : Nat) (l : List Nat) : ∃ rest, insertBoundary b (0 :: l) = 0 :: rest := by
  rcases b with _ | b
  · exact ⟨l, rfl⟩
  · exact ⟨insertBoundary (b + 1) l, by simp [insertBoundary]⟩

theorem insertBoundary_length_le (b : Nat) (l : List Nat) : (insertBoundary b l).length ≤ l.length + 1 := by
  induction l with
  | nil => simp [insertBoundary]
  | cons x l ih =>
    unfold insertBoundary
    split
    · simp
    · split
      · simp
      · simpa using ih

theorem boundaries_zero (box : Option KeyBox) (edge : Nat) : ∃ rest, boundaries box edge = 0 :: rest := by
  cases box with
  | none => exact insertBoundary_zero edge [720]
  | some b =>
    obtain ⟨inner, hi⟩ := insertBoundary_zero b.kx1 [720]
    obtain ⟨both, hb⟩ := insertBoundary_zero b.kx0 inner
    obtain ⟨rest, hr⟩ := insertBoundary_zero edge both
    exact ⟨rest, by simp only [boundaries, hi, hb, hr]⟩

theorem boundaries_length_le (box : Option KeyBox) (edge : Nat) : (boundaries box edge).length ≤ 5 := by
  unfold boundaries
  refine Nat.le_trans (insertBoundary_length_le _ _) ?_
  cases box with
  | none => decide
  | some b =>
    have inner := insertBoundary_length_le b.kx1 [0, 720]
    have outer := insertBoundary_length_le b.kx0 (insertBoundary b.kx1 [0, 720])
    simp only [List.length_cons, List.length_nil] at inner
    dsimp only
    omega

theorem mem_boundaries {box : Option KeyBox} {edge a : Nat} :
    a ∈ boundaries box edge ↔ a = edge ∨ a = 0 ∨ a = 720 ∨ ∃ b, box = some b ∧ (a = b.kx0 ∨ a = b.kx1) := by
  unfold boundaries
  cases box with
  | none => simp [mem_insertBoundary]
  | some b =>
    simp only [mem_insertBoundary, List.mem_cons, List.not_mem_nil, or_false, Option.some.injEq, exists_eq_left']
    omega

/-! ### A line's spans -/

/-- What a column of a line shows. -/
def lineShows (w : Wipe) (box : Option KeyBox) (line x c : Nat) : Bool :=
  showsB box (inWiped w.reverse x c) (inKey box line c)

/-- The wiped side and the key region change at the boundaries alone. -/
theorem lineShows_switches (w : Wipe) (box : Option KeyBox) (line x : Nat) :
    SwitchesAt (lineShows w box line x) 0 (boundaries box (wipeColumn w.reverse x)) := by
  intro p c _ hpc between
  have edge := between _ (mem_boundaries.2 (.inl rfl))
  have wiped : inWiped w.reverse x c = inWiped w.reverse x p := by
    unfold wipeColumn at edge
    unfold inWiped
    split at edge <;> simp_all only [if_true, Bool.false_eq_true, if_false, decide_eq_decide] <;> omega
  have key : inKey box line c = inKey box line p := by
    cases box with
    | none => rfl
    | some b =>
      have left := between b.kx0 (mem_boundaries.2 (.inr (.inr (.inr ⟨b, rfl, .inl rfl⟩))))
      have right := between b.kx1 (mem_boundaries.2 (.inr (.inr (.inr ⟨b, rfl, .inr rfl⟩))))
      have hl : decide (b.kx0 ≤ c) = decide (b.kx0 ≤ p) := decide_eq_decide.2 (by omega)
      have hr : decide (c < b.kx1) = decide (p < b.kx1) := decide_eq_decide.2 (by omega)
      simp only [inKey, hl, hr]
  simp only [lineShows, wiped, key]

theorem lineSpans_covers (w : Wipe) (box : Option KeyBox) (line x c : Nat) (hc : c < 720) :
    (∃ z ∈ lineSpans w box line x, z.Covers c) ↔ lineShows w box line x c = true := by
  have sorted := boundaries_ascending box (wipeColumn w.reverse x)
  have switches := lineShows_switches w box line x
  have last : (720 : Nat) ∈ boundaries box (wipeColumn w.reverse x) := mem_boundaries.2 (.inr (.inr (.inl rfl)))
  rw [lineSpans, mergeSpans_covers (intervalsOfB_laid sorted)]
  obtain ⟨rest, zero⟩ := boundaries_zero box (wipeColumn w.reverse x)
  rw [zero] at sorted switches last ⊢
  refine (intervalsOfB_covers sorted switches c).trans ⟨fun h => h.2.2, fun shown => ⟨Nat.zero_le c, ⟨720, ?_, hc⟩, shown⟩⟩
  exact (List.mem_cons.1 last).resolve_left (by decide)

theorem lineSpans_apart (w : Wipe) (box : Option KeyBox) (line x : Nat) :
    (lineSpans w box line x).Pairwise (fun x y => x.stop < y.start)
      ∧ ∀ z ∈ lineSpans w box line x, z.start < z.stop :=
  mergeSpans_apart (intervalsOfB_laid (boundaries_ascending _ _))

theorem lineSpans_ends (w : Wipe) (box : Option KeyBox) (line x : Nat) :
    ∀ z ∈ lineSpans w box line x,
      z.start ∈ boundaries box (wipeColumn w.reverse x) ∧ z.stop ∈ boundaries box (wipeColumn w.reverse x) := by
  intro z hz
  have sorted := boundaries_ascending box (wipeColumn w.reverse x)
  obtain ⟨⟨a, ha, start⟩, b, hb, stop⟩ := mergeSpans_ends _ z hz
  obtain ⟨rest, zero⟩ := boundaries_zero box (wipeColumn w.reverse x)
  rw [zero] at sorted ha hb ⊢
  rw [← start, ← stop]
  exact ⟨(intervalsOfB_ends sorted ha).1, List.mem_cons_of_mem _ (intervalsOfB_ends sorted hb).2.2.2⟩

theorem boundaries_within {box : Option KeyBox} {edge : Nat} (he : edge ≤ 720)
    (hb : ∀ b, box = some b → b.kx0 < b.kx1 ∧ b.kx1 ≤ 720) : ∀ a ∈ boundaries box edge, a ≤ 720 := by
  intro a ha
  rcases mem_boundaries.1 ha with rfl | rfl | rfl | ⟨b, box, rfl | rfl⟩
  · exact he
  · decide
  · exact Nat.le_refl _
  · have := hb b box
    omega
  · exact (hb b box).2

theorem inWiped_iff (reverse : Bool) (x c : Nat) :
    inWiped reverse x c = true ↔ if reverse then 720 - x ≤ c else c < x := by
  cases reverse <;> simp [inWiped]

theorem inKey_iff (b : KeyBox) (line c : Nat) :
    inKey (some b) line c = true ↔ b.ky0 ≤ line ∧ line < b.ky1 ∧ b.kx0 ≤ c ∧ c < b.kx1 := by
  simp [inKey, and_assoc]

/-- The mask's weights: neither 1, key 2, wiped 4, both 8 (R159). -/
theorem showsB_box (b : KeyBox) (wiped key : Bool) :
    showsB (some b) wiped key = true
      ↔ (¬ wiped = true ∧ ¬ key = true ∧ b.mask.testBit 0 = true) ∨ (¬ wiped = true ∧ key = true ∧ b.mask.testBit 1 = true)
        ∨ (wiped = true ∧ ¬ key = true ∧ b.mask.testBit 2 = true) ∨ (wiped = true ∧ key = true ∧ b.mask.testBit 3 = true) := by
  cases wiped <;> cases key <;> simp [showsB]

theorem showsB_masks (b : KeyBox) (wiped key : Bool) :
    (b.mask = 12 → showsB (some b) wiped key = showsB none wiped key)
      ∧ (b.mask = 3 → showsB (some b) wiped key = !wiped) ∧ (b.mask = 6 → showsB (some b) wiped key = (wiped != key))
      ∧ (b.mask = 10 → showsB (some b) wiped key = key) ∧ (b.mask = 15 → showsB (some b) wiped key = true)
      ∧ (b.mask = 0 → showsB (some b) wiped key = false) := by
  refine ⟨?_, ?_, ?_, ?_, ?_, ?_⟩ <;> intro mask <;> simp only [showsB, mask] <;> revert wiped key <;> decide

/-- Settles O60: merging keeps the cover of the intervals, which is what is shown between the boundaries; spans that stand apart
take two of the five boundaries each. -/
theorem spansCoverColumnsOfB : Obligations.SpansCoverColumnsOfB := by
  refine ⟨fun w box line x hx hbox => ?_, showsB_masks⟩
  have edge : wipeColumn w.reverse x ≤ 720 := by
    unfold wipeColumn
    split <;> omega
  obtain ⟨apart, full⟩ := lineSpans_apart w box line x
  have ends := lineSpans_ends w box line x
  have count := apart_length_le apart full ends
  have boundaryCount := boundaries_length_le box (wipeColumn w.reverse x)
  refine ⟨by omega, apart, fun z hz => ⟨full z hz, boundaries_within edge hbox _ (ends z hz).2⟩, fun c hc => ⟨?_, ?_⟩⟩
  · rintro rfl
    exact (lineSpans_covers w none line x c hc).trans (inWiped_iff w.reverse x c)
  · rintro b rfl
    refine (lineSpans_covers w (some b) line x c hc).trans ?_
    rw [lineShows, showsB_box, inWiped_iff, inKey_iff]

end Sys2Proof.Machine
end

section
/-! SUPPORT and the statements of console transport, follows and marks (R84, R100 to R107, R115). -/

namespace Sys2Proof.Machine

/-! ### Placing a motion request (R83, R84) -/

/-- A label in range names a position, advanced or not. -/
theorem consoleLabel_isSome {mode : LabelMode} {l : Label} (h : labelInRange mode l = true) :
    (consoleLabel mode l).isSome = true := by
  unfold consoleLabel
  rw [if_pos h]
  split <;> rfl

/-- A port that takes motion holds the request. -/
theorem Port.placeMotion_taken {p : Port} (online : p.link = .online)
    (room : p.queue.any (fun x => x.request.isMotion) = true ∨ p.queue.length < Config.portQueueCapacity) (r : DeckRequest) :
    ∃ p', p.placeMotion r = .ok p' := by
  unfold Port.placeMotion
  rw [online]
  dsimp only [linkRefusal]
  by_cases queued : p.queue.any (fun x => x.request.isMotion) = true
  · exact ⟨_, if_pos queued⟩
  · rw [if_neg queued, if_pos (room.resolve_left queued)]
    exact ⟨_, rfl⟩

/-- An ONLINE port that does not take motion is full. -/
theorem Port.placeMotion_full {p : Port} (online : p.link = .online)
    (full : ¬ (p.queue.any (fun x => x.request.isMotion) = true ∨ p.queue.length < Config.portQueueCapacity)) (r : DeckRequest) :
    p.placeMotion r = .error .queueFull := by
  obtain ⟨none, none'⟩ := not_or.1 full
  unfold Port.placeMotion
  rw [online]
  dsimp only [linkRefusal]
  rw [if_neg none, if_neg none']

theorem Port.placeMotion_refused {p : Port} {e : Result} (h : linkRefusal p.link = some e) (r : DeckRequest) :
    p.placeMotion r = .error e := by
  unfold Port.placeMotion
  rw [h]

theorem placeMotion_taken {s : State} {m : MachineId} (h : TakesMotion s m) (r : DeckRequest) :
    ∃ p, (s.port m).placeMotion r = .ok p ∧ placeMotion s m r = .ok (s.setPort m p) := by
  obtain ⟨p, hp⟩ := Port.placeMotion_taken h.1 h.2 r
  exact ⟨p, hp, by rw [placeMotion, hp]⟩

/-- A port that does not take motion, ONLINE or not, refuses the request. -/
theorem placeMotion_refused {s : State} {m : MachineId} (h : ¬ TakesMotion s m) (r : DeckRequest) :
    ∃ e, placeMotion s m r = .error e := by
  unfold placeMotion
  split
  · rename_i p hp
    obtain ⟨online, -, -⟩ := Port.placeMotion_spec hp
    refine absurd ⟨online, Classical.byContradiction fun full => ?_⟩ h
    rw [Port.placeMotion_full online full] at hp
    cases hp
  · exact ⟨_, rfl⟩

theorem placeMotion_full {s : State} {m : MachineId} (online : s.link m = .online) (h : ¬ TakesMotion s m) (r : DeckRequest) :
    placeMotion s m r = .error .queueFull := by
  unfold placeMotion
  rw [Port.placeMotion_full online (fun room => h ⟨online, room⟩)]

/-- A request that is passed over when refused is placed when the port takes it. -/
theorem tryMotion_taken {s : State} {m : MachineId} (h : TakesMotion s m) (r : DeckRequest) (v : Int) :
    ∃ p, (s.port m).placeMotion r = .ok p
      ∧ tryMotion s m r v = (s.setPort m p).setMachine m { s.machine m with lastSpeed := some v } := by
  obtain ⟨p, hp, placed⟩ := placeMotion_taken h r
  exact ⟨p, hp, by rw [tryMotion, placed]; rfl⟩

theorem tryMotion_passed {s : State} {m : MachineId} (h : ¬ TakesMotion s m) (r : DeckRequest) (v : Int) :
    tryMotion s m r v = s := by
  obtain ⟨e, refused⟩ := placeMotion_refused h r
  rw [tryMotion, refused]

/-- What a request that is passed over when refused leaves at its port and of the last speed. -/
theorem tryMotion_port (s : State) (m : MachineId) (r : DeckRequest) (v : Int) :
    (TakesMotion s m → ((tryMotion s m r v).port m).queue = motionQueue (s.port m).queue r
        ∧ ((tryMotion s m r v).machine m).lastSpeed = some v)
      ∧ (¬ TakesMotion s m → (tryMotion s m r v).port m = s.port m
        ∧ ((tryMotion s m r v).machine m).lastSpeed = (s.machine m).lastSpeed) := by
  refine ⟨fun takes => ?_, fun passed => by rw [tryMotion_passed passed]; exact ⟨rfl, rfl⟩⟩
  obtain ⟨p, hp, placed⟩ := tryMotion_taken takes r v
  rw [placed]
  exact ⟨by simpa using (Port.placeMotion_spec hp).2.1, by simp⟩

/-! ### Answering with a change of machines -/

/-- An answer whose work shows on the console link by its notices alone. -/
theorem link_replied {s u : State} {q : RequestMessage} {rest : List RequestMessage} (link : OnlyNotices (dequeued s rest) u)
    (result : Result) (data : List Byte) : Replied s (replyTo q ⟨u, result, data⟩) q rest result data := by
  have replies := link.replies
  refine ⟨link.inbound, ?_, link.transfer, link.overrun⟩
  show u.console.replies ++ _ = _
  rw [replies]
  rfl

/-- An answer whose work changes machines, ports and notices alone. -/
theorem machines_replied {s u : State} {q : RequestMessage} {rest : List RequestMessage} (h : MachinesOnly (dequeued s rest) u)
    (result : Result) (data : List Byte) :
    Replied s (replyTo q ⟨u, result, data⟩) q rest result data
      ∧ replyTo q ⟨u, result, data⟩ = { s with
          ports := u.ports, machines := u.machines, console := (replyTo q ⟨u, result, data⟩).console } := by
  obtain ⟨frame, link⟩ := h
  refine ⟨link_replied link result data, ?_⟩
  rw [replyTo_replied, frame]
  rfl

/-! ### Console transport (R100 to R102) -/

theorem transportRefusal_passed {s : State} {m : MachineId} {isStop : Bool} (configured : (s.machine m).configured = true)
    (unclaimed : (s.machine m).claimed = false) (free : (s.machine m).following = false) (online : s.link m = .online)
    (stop : s.stopAsserted = false ∨ isStop = true) : transportRefusal s m isStop = none := by
  unfold transportRefusal
  rw [configured, unclaimed, free, online]
  rcases stop with released | isStop
  · simp [linkRefusal, released]
  · simp [linkRefusal, isStop]

/-- What an accepted transport request leaves: the motion request placed, the record as the request makes it. -/
structure MotionServed (s t : State) (q : RequestMessage) (rest : List RequestMessage) (m : MachineId) (d : DeckRequest)
    (result : Result) (data : List Byte) (r : MachineRec) : Prop where
  reply : Replied s t q rest result data
  queue : (t.port m).queue = motionQueue (s.port m).queue d
  record : t.machine m = r
  others : OthersKept s t m
  noticed : r.control ≠ (s.machine m).control → Noticed t (machineStateNotice t m)
  quiet : r.control = (s.machine m).control → t.console.notices = s.console.notices
  frame : t = { s with ports := t.ports, machines := t.machines, console := t.console }

theorem placed_served {s : State} {m : MachineId} {p : Port} {d : DeckRequest} (hp : (s.port m).placeMotion d = .ok p)
    (f : MachineRec → MachineRec) (claim : (f (s.machine m)).claimed = (s.machine m).claimed) (q : RequestMessage)
    (rest : List RequestMessage) (result : Result) (data : List Byte) :
    MotionServed s (replyTo q ⟨changeMachine ((dequeued s rest).setPort m p) m f, result, data⟩) q rest m d result data
      (f (s.machine m)) := by
  have only : MachinesOnly (dequeued s rest) (changeMachine ((dequeued s rest).setPort m p) m f) :=
    (MachinesOnly.setPort _ m p).trans (changeMachine_machinesOnly _ m f)
  obtain ⟨reply, frame⟩ := machines_replied (q := q) only result data
  refine ⟨reply, ?_, ?_, fun n hn => ⟨?_, ?_⟩, fun changed => ?_, fun same => ?_, frame⟩
  · show ((changeMachine ((dequeued s rest).setPort m p) m f).port m).queue = _
    rw [changeMachine_port, State.setPort_port]
    exact (Port.placeMotion_spec hp).2.1
  · exact changeMachine_machine _ m f
  · show (changeMachine ((dequeued s rest).setPort m p) m f).port n = _
    rw [changeMachine_port, State.setPort_port_other _ p hn]
    rfl
  · exact changeMachine_machine_other _ f hn
  · exact changeMachine_noticed ((dequeued s rest).setPort m p) m f (.inl changed)
  · show (changeMachine ((dequeued s rest).setPort m p) m f).console.notices = _
    rw [changeMachine_quiet ((dequeued s rest).setPort m p) m f same claim]
    rfl

theorem transport_served {s : State} {m : MachineId} {isStop : Bool} {q : RequestMessage} {rest : List RequestMessage}
    (passed : transportRefusal s m isStop = none) (takes : TakesMotion s m) (d : DeckRequest) (v : Int) (result : Result)
    (data : List Byte) :
    MotionServed s (replyTo q (transport (dequeued s rest) m d v isStop result data)) q rest m d result data
      ((s.machine m).transported v) := by
  obtain ⟨p, hp, placed⟩ := placeMotion_taken takes d
  have answer : transport (dequeued s rest) m d v isStop result data
      = ⟨changeMachine ((dequeued s rest).setPort m p) m (fun x => x.transported v), result, data⟩ := by
    have passed' : transportRefusal (dequeued s rest) m isStop = none := passed
    have placed' : placeMotion (dequeued s rest) m d = .ok ((dequeued s rest).setPort m p) := by
      show (match (s.port m).placeMotion d with | .ok p => _ | .error e => _) = _
      rw [hp]
    rw [transport, passed', placed']
  rw [answer]
  exact placed_served hp _ rfl q rest result data

/-- The record of a machine on whose target a console locate has begun. -/
def MachineRec.locatingOn (x : MachineRec) (target : Nat) : MachineRec :=
  { x.countsCleared with control := .locating, locate := some ⟨target, .console, false, 0⟩, lastSpeed := none }

theorem locateTo_served {s : State} {m : MachineId} {q : RequestMessage} {rest : List RequestMessage}
    (passed : transportRefusal s m false = none) (takes : TakesMotion s m) (target : Nat) (advanced : Bool) :
    MotionServed s (replyTo q (locateTo (dequeued s rest) m target advanced)) q rest m (.locate target)
      (acceptedOr advanced) (labelUsed (machineLabel s m target) advanced) ((s.machine m).locatingOn target) := by
  obtain ⟨p, hp, placed⟩ := placeMotion_taken takes (.locate target)
  have answer : locateTo (dequeued s rest) m target advanced
      = ⟨changeMachine ((dequeued s rest).setPort m p) m (fun x => x.locatingOn target), acceptedOr advanced,
          labelUsed (machineLabel s m target) advanced⟩ := by
    have passed' : transportRefusal (dequeued s rest) m false = none := passed
    have placed' : placeMotion (dequeued s rest) m (.locate target) = .ok ((dequeued s rest).setPort m p) := by
      show (match (s.port m).placeMotion (.locate target) with | .ok p => _ | .error e => _) = _
      rw [hp]
    rw [locateTo, passed', startLocate, placed']
    rfl
  rw [answer]
  exact placed_served hp _ rfl q rest _ _

/-- A speed held within the limit. -/
theorem answerShuttle_eq (m : MachineId) (v : Int) (s : State) :
    answerShuttle m v s
      = if clampSpeed (s.machine m).params.shuttleLimit v = v then transport s m (.shuttle v) v false .ok []
        else transport s m (.shuttle (clampSpeed (s.machine m).params.shuttleLimit v))
          (clampSpeed (s.machine m).params.shuttleLimit v) false .adjusted
          (i16 (clampSpeed (s.machine m).params.shuttleLimit v)) := by
  unfold answerShuttle
  dsimp only
  split
  · rename_i kept
    rw [kept]
  · rfl

/-- Settles O30: each request passes its tests, and its answer is a request placed and a record changed. -/
theorem transportRequestsPlaceMotion : Obligations.TransportRequestsPlaceMotion := by
  intro s q rest m configured unclaimed free takes done moved limit
  have passes (isStop : Bool) (stop : s.stopAsserted = false ∨ isStop = true) : transportRefusal s m isStop = none :=
    transportRefusal_passed configured unclaimed free takes.1 stop
  have done_of {c : Instr} {d : DeckRequest} {result : Result} {data : List Byte} {r : MachineRec} {t : State}
      (served : exec c s = .next t) (h : MotionServed s t q rest m d result data r) : done c d result data r :=
    ⟨t, served, h.reply, h.queue, h.record, h.others, h.noticed, h.quiet, h.frame⟩
  have shuttle {v w : Int} (head : HeadIs s q rest (.shuttle m v)) (clamped : clampSpeed (s.machine m).params.shuttleLimit v = w)
      (released : s.stopAsserted = false) :
      (w = v → done .shuttle (.shuttle v) .ok [] (moved v))
        ∧ (w ≠ v → done .shuttle (.shuttle w) .adjusted (i16 w) (moved w)) := by
    have answer := answerShuttle_eq m v (dequeued s rest)
    have served := exec_served (c := .shuttle) head rfl rfl
    have clamped' : clampSpeed ((dequeued s rest).machine m).params.shuttleLimit v = w := clamped
    rw [clamped'] at answer
    refine ⟨fun kept => ?_, fun adjusted => ?_⟩
    · rw [if_pos kept] at answer
      exact done_of (served.trans (by rw [answer])) (transport_served (passes false (.inl released)) takes _ _ _ _)
    · rw [if_neg adjusted] at answer
      exact done_of (served.trans (by rw [answer])) (transport_served (passes false (.inl released)) takes _ _ _ _)
  refine ⟨fun head => done_of (exec_served (c := .stop) head rfl rfl) (transport_served (passes true (.inr rfl)) takes _ _ _ _),
    fun released => ⟨fun head => ?play, fun v low high head => ?within, fun v above head => ?above, fun v below head => ?below,
      fun l p advanced head label => ?locate⟩⟩
  case play => exact done_of (exec_served (c := .play) head rfl rfl) (transport_served (passes false (.inl released)) takes _ _ _ _)
  case within => exact (shuttle head (w := v) (by unfold clampSpeed; omega) released).1 rfl
  case above => exact (shuttle head (w := limit) (by unfold clampSpeed; omega) released).2 (by omega)
  case below => exact (shuttle head (w := -limit) (by unfold clampSpeed; omega) released).2 (by omega)
  case locate =>
    have answer : answerLocate m l (dequeued s rest) = locateTo (dequeued s rest) m p advanced := by
      have conversion : convertFor (dequeued s rest) m l = .ok (p, advanced) := by
        show (if (s.machine m).configured then convert (modeOf s m) l else _) = _
        rw [if_pos configured, convert_of_label label]
      rw [answerLocate, conversion]
    refine done_of (exec_served (c := .locate) head rfl rfl) ?_
    rw [answer]
    exact locateTo_served (passes false (.inl released)) takes p advanced

/-- The tests of R100 that a console transport request fails, in their order; `isStop` for STOP. -/
def TransportRefused (s : State) (m : MachineId) (result : Result) (isStop : Bool) : Prop :=
  transportRefusal s m isStop = some result
    ∨ (transportRefusal s m isStop = none ∧ result = .queueFull ∧ ∀ r, placeMotion s m r = .error .queueFull)

theorem transport_refused {s : State} {m : MachineId} {result : Result} {isStop : Bool} (h : TransportRefused s m result isStop)
    (d : DeckRequest) (v : Int) (served : Result) (data : List Byte) : transport s m d v isStop served data = refuseWith s result := by
  unfold transport
  rcases h with refusal | ⟨passed, rfl, full⟩
  · rw [refusal]
  · rw [passed, full]

theorem locateTo_refused {s : State} {m : MachineId} {result : Result} (h : TransportRefused s m result false) (target : Nat)
    (advanced : Bool) : locateTo s m target advanced = refuseWith s result := by
  unfold locateTo
  rcases h with refusal | ⟨passed, rfl, full⟩
  · rw [refusal]
  · rw [passed, startLocate, full]

/-- Settles O31: the tests of R100 refuse in their order, and a port that takes no motion refuses last. -/
theorem transportRefusalsInOrder : Obligations.TransportRefusalsInOrder := by
  intro s q rest m result isStop cases
  have refused : TransportRefused (dequeued s rest) m result isStop := by
    unfold TransportRefused transportRefusal
    simp only [dequeued_machine, dequeued_link, dequeued_stopAsserted]
    rcases cases with ⟨configured, rfl⟩ | ⟨configured, ⟨claimed, rfl⟩ | ⟨claimed, ⟨following, rfl⟩ | ⟨following, rest⟩⟩⟩
    · simp [configured]
    · simp [configured, claimed]
    · simp [configured, claimed, following]
    rcases rest with ⟨link, rfl⟩ | ⟨link, rfl⟩ | ⟨link, ⟨stop, isStop, rfl⟩ | ⟨stop, full, rfl⟩⟩
    · simp [configured, claimed, following, link, linkRefusal]
    · simp [configured, claimed, following, link, linkRefusal]
    · simp [configured, claimed, following, link, linkRefusal, stop, isStop]
    · refine .inr ⟨?_, rfl, placeMotion_full link full⟩
      rcases stop with stop | stop <;> simp [configured, claimed, following, link, linkRefusal, stop]
  refine ⟨?stop, ?rest⟩
  case stop =>
    rintro rfl head
    exact refuses_of (exec_served (c := .stop) head rfl rfl) (transport_refused refused _ _ _ _)
  case rest =>
    rintro rfl
    refine ⟨fun head => ?play, fun v head => ?shuttle, fun l label head => ?locate⟩
    case play => exact refuses_of (exec_served (c := .play) head rfl rfl) (transport_refused refused _ _ _ _)
    case shuttle =>
      refine refuses_of (exec_served (c := .shuttle) head rfl rfl) ?_
      rw [answerShuttle_eq]
      split <;> exact transport_refused refused _ _ _ _
    case locate =>
      refine refuses_of (exec_served (c := .locate) head rfl rfl) ?_
      show answerLocate m l (dequeued s rest) = _
      unfold answerLocate convertFor
      by_cases configured : (s.machine m).configured = true
      · obtain ⟨⟨p, advanced⟩, known⟩ := Option.isSome_iff_exists.1 (consoleLabel_isSome label)
        rw [dequeued_machine, if_pos configured, dequeued_modeOf, convert_of_label known]
        exact locateTo_refused refused p advanced
      · have unknown : result = .notConfigured := by
          rcases cases with ⟨-, h⟩ | ⟨h, -⟩
          · exact h
          · exact absurd h configured
        rw [dequeued_machine, if_neg configured, unknown]

/-! ### Follows (R105 to R107) -/

theorem offsetInRange_iff (day : Nat) (off : Int) : offsetInRange day off = true ↔ -(day : Int) < 2 * off ∧ 2 * off ≤ (day : Int) := by
  simp [offsetInRange]

section follow

variable {s : State} {f l : MachineId} {off : Int}

theorem followRefusal_unconfigured (h : (s.machine f).configured = false ∨ (s.machine l).configured = false) :
    followRefusal s f l off = some .notConfigured := by
  unfold followRefusal
  rcases h with h | h <;> simp [h]

variable (hf : (s.machine f).configured = true) (hl : (s.machine l).configured = true)

include hf hl

theorem followRefusal_same (h : f = l) : followRefusal s f l off = some .sameMachine := by
  unfold followRefusal
  rw [hf, hl]
  simp [h]

theorem followRefusal_range (h : f ≠ l) (outside : offsetInRange (dayOf s f) off = false) :
    followRefusal s f l off = some .range := by
  unfold followRefusal
  rw [hf, hl]
  simp [h, outside]

/-- The tests that follow the offset's. -/
theorem followRefusal_late (h : f ≠ l) (inside : offsetInRange (dayOf s f) off = true) :
    followRefusal s f l off =
      if (s.machine f).claimed then some .claimed
      else if chainReaches s f 8 l then some .cycle
      else match linkRefusal (s.link f) with
        | some e => some e
        | none => if s.stopAsserted then some .stopped else none := by
  unfold followRefusal
  rw [hf, hl]
  simp only [Bool.not_true, Bool.or_self, Bool.false_eq_true, if_false, h, inside] <;> rfl

end follow

theorem chainReaches_dequeued (s : State) (rest : List RequestMessage) (f : MachineId) (n : Nat) (l : MachineId) :
    chainReaches (dequeued s rest) f n l = chainReaches s f n l := by
  induction n generalizing l with
  | zero => rfl
  | succ n ih =>
    simp only [chainReaches, dequeued_machine]
    cases (s.machine l).leader <;> simp only [ih]

theorem answerFollow_refused {s : State} {f l : MachineId} {off : Int} {e : Result} (h : followRefusal s f l off = some e) :
    answerFollow f l off s = refuseWith s e := by
  unfold answerFollow
  rw [h]

/-- What a follow that is cancelled leaves of its machine. -/
theorem cancelFollow_record (s : State) (m : MachineId) :
    (cancelFollow s m).machine m
      = { (s.machine m).countsCleared with
          leader := .noLeader, control := .free, lastSpeed := ((tryStop s m).machine m).lastSpeed } := by
  unfold cancelFollow dropLeader tryStop
  rw [changeMachine_machine, tryMotion_record]
  rfl

/-- Settles O32: FOLLOW's tests in their order and its record; UNFOLLOW's follow cancelled. -/
theorem followAndUnfollowSetLeader : Obligations.FollowAndUnfollowSetLeader := by
  intro s q rest
  refine ⟨fun f l off head => ?follow, fun m head unconfigured => ?_, fun m head configured => ?unfollow⟩
  case follow =>
    have served := exec_served (c := .follow) head rfl rfl
    have refused {e : Result} (h : followRefusal (dequeued s rest) f l off = some e) : Refuses .follow s q rest e :=
      refuses_of served (answerFollow_refused h)
    have range := offsetInRange_iff (dayOf s f) off
    intro day
    refine ⟨fun h => refused (followRefusal_unconfigured h), fun hf hl => ⟨fun h => refused (followRefusal_same hf hl h),
      fun h outside => refused (followRefusal_range hf hl h ?_), fun h low high => ?_⟩⟩
    · show offsetInRange (dayOf s f) off = false
      rw [← Bool.not_eq_true, range]
      omega
    have late := followRefusal_late (s := dequeued s rest) hf hl h (range.2 ⟨low, high⟩)
    simp only [chainReaches_dequeued, dequeued_machine, dequeued_link, dequeued_stopAsserted] at late
    refine ⟨fun claimed => refused ?_, fun unclaimed cycle => refused ?_, fun unclaimed open' => ⟨fun link => refused ?_,
      fun link => refused ?_, fun link stop => refused ?_, fun link released => ?_⟩⟩
    · simp [late, claimed]
    · simp [late, unclaimed, cycle]
    · simp [late, unclaimed, open', link, linkRefusal]
    · simp [late, unclaimed, open', link, linkRefusal]
    · simp [late, unclaimed, open', link, linkRefusal, stop]
    have passed : followRefusal (dequeued s rest) f l off = none := by
      simp [late, unclaimed, open', link, linkRefusal, released]
    have answer : answerFollow f l off (dequeued s rest)
        = ⟨changeMachine (dequeued s rest) f (fun x => x.follows l off), .ok, []⟩ := by
      unfold answerFollow
      rw [passed]
    have only := changeMachine_machinesOnly (dequeued s rest) f (fun x => x.follows l off)
    obtain ⟨reply, frame⟩ := machines_replied (q := q) only .ok []
    have ports := changeMachine_ports (dequeued s rest) f (fun x => x.follows l off)
    rw [answer] at served
    refine ⟨_, served, reply, changeMachine_machine _ f _, fun n hn => ⟨changeMachine_port _ f n _, changeMachine_machine_other _ _ hn⟩,
      ports, ?_⟩
    rw [frame, ports]
    rfl
  · refine refuses_of (exec_served (c := .unfollow) head rfl rfl) ?_
    show (if !(s.machine m).configured then _ else _) = _
    rw [unconfigured]
    rfl
  case unfollow =>
    have served := exec_served (c := .unfollow) head rfl rfl
    refine ⟨fun claimed => refuses_of served ?_, fun unclaimed free => served.trans ?_, fun unclaimed following => ?_⟩
    · show (if !(s.machine m).configured then _ else if (s.machine m).claimed then _ else _) = _
      rw [configured, claimed]
      rfl
    · show Host.Outcome.next (replyTo q (if !(s.machine m).configured then _ else if (s.machine m).claimed then _ else
        if (s.machine m).following then _ else _)) = _
      rw [configured, unclaimed, free]
      rfl
    have answer : answerUnfollow m (dequeued s rest) = ⟨cancelFollow (dequeued s rest) m, .ok, []⟩ := by
      show (if !(s.machine m).configured then _ else if (s.machine m).claimed then _ else
        if (s.machine m).following then _ else _) = _
      rw [configured, unclaimed, following]
      rfl
    rw [answer] at served
    obtain ⟨reply, frame⟩ := machines_replied (q := q) (cancelFollow_machinesOnly (dequeued s rest) m) .ok []
    obtain ⟨taken, passed⟩ := tryMotion_port (dequeued s rest) m .stop 0
    have record := cancelFollow_record (dequeued s rest) m
    have port : (cancelFollow (dequeued s rest) m).port m = (tryStop (dequeued s rest) m).port m := changeMachine_port _ m m _
    refine ⟨_, served, reply, ?_, ?_, ?_, ?_, fun takes => ?_, fun takes => ?_, fun n hn => ?_, frame⟩
    · exact congrArg MachineRec.leader record
    · exact congrArg MachineRec.control record
    · exact congrArg MachineRec.inWindow record
    · exact congrArg MachineRec.outWindow record
    · exact ⟨(congrArg Port.queue port).trans (taken takes).1, (congrArg MachineRec.lastSpeed record).trans (taken takes).2⟩
    · exact ⟨port.trans (passed takes).1, (congrArg MachineRec.lastSpeed record).trans (passed takes).2⟩
    · exact cancelFollow_others (dequeued s rest) m n hn

/-! ### Marks (R115) -/

section mark

variable {s : State} {m : MachineId} (store : MachineRec → Nat → MachineRec)

theorem mark_unconfigured (h : (s.machine m).configured = false) : mark s m store = refuseWith s .notConfigured := by
  unfold mark
  rw [h]
  rfl

variable (configured : (s.machine m).configured = true)

include configured

theorem mark_stale (stale : (s.machine m).quality = .stale) : mark s m store = refuseWith s .noPosition := by
  unfold mark markable
  rw [configured, stale]
  rfl

theorem mark_stored (live : (s.machine m).quality ≠ .stale) {p : Nat} (position : (s.machine m).position = some p) :
    mark s m store = ⟨s.setMachine m (store (s.machine m) p), .ok,
      labelBytes (labelOf (modeOf s m) p) ++ u8 (s.machine m).quality.code⟩ := by
  have estimate : markable (s.machine m) = some p := by
    unfold markable
    cases quality : (s.machine m).quality with
    | tc | ctl => exact position
    | stale => exact absurd quality live
  unfold mark
  rw [configured, estimate]
  rfl

end mark

/-- Settles O33: the two MARKs store the estimate by one operation, whose three outcomes are stated above. -/
theorem marksStoreEstimate : Obligations.MarksStoreEstimate := by
  intro s q rest m
  have markIn (head : HeadIs s q rest (.markIn m)) := exec_served (c := .markIn) head rfl rfl
  have markOut (head : HeadIs s q rest (.markOut m)) := exec_served (c := .markOut) head rfl rfl
  have clear (head : HeadIs s q rest (.clearMarks m)) := exec_served (c := .clearMarks) head rfl rfl
  refine ⟨fun unconfigured => ⟨fun head => ?_, fun head => ?_, fun head => ?_⟩, fun configured =>
    ⟨fun stale => ⟨fun head => ?_, fun head => ?_⟩, fun p live position => ⟨fun head => ?_, fun head => ?_⟩, fun head => ?_⟩⟩
  · exact refuses_of (markIn head) (mark_unconfigured _ unconfigured)
  · exact refuses_of (markOut head) (mark_unconfigured _ unconfigured)
  · exact refuses_of (clear head) (if_neg (by rw [dequeued_machine, unconfigured]; decide))
  · exact refuses_of (markIn head) (mark_stale _ configured stale)
  · exact refuses_of (markOut head) (mark_stale _ configured stale)
  · exact (markIn head).trans (by rw [answerMarkIn, mark_stored (s := dequeued s rest) _ configured live position]; rfl)
  · exact (markOut head).trans (by rw [answerMarkOut, mark_stored (s := dequeued s rest) _ configured live position]; rfl)
  · exact (clear head).trans (by rw [answerClearMarks, dequeued_machine, if_pos configured]; rfl)

end Sys2Proof.Machine
end

section
/-! SUPPORT and the statements of the run's settings (R140, R191), the cue lines' requests (R168, R173), SELECT and the read
requests (R99, R141, R163, R164, R177, R190). -/

namespace Sys2Proof.Machine

/-! ### RESET RUN and SET RUN PARAMETERS (R140, R191) -/

theorem runParamInRange_iff (x : Option Nat) (lo hi : Nat) :
    runParamInRange x lo hi = true ↔ ∀ v, x = some v → lo ≤ v ∧ v ≤ hi := by
  cases x with
  | none => simp [runParamInRange]
  | some v => simp [runParamInRange, within]

/-- The four values lie in their ranges, and the sync margin that results is below the preroll. -/
def RunParamsFit (p : RunParams) (a b c d : Option Nat) : Prop :=
  (∀ v, a = some v → 60 ≤ v ∧ v ≤ 1800) ∧ (∀ v, b = some v → v ≤ 600) ∧ (∀ v, c = some v → 600 ≤ v ∧ v ≤ 7200)
    ∧ (∀ v, d = some v → 4 ≤ v ∧ v ≤ 600) ∧ p.syncMargin < p.preroll

theorem runParamsFit_iff (p : RunParams) (a b c d : Option Nat) :
    (runParamInRange a 60 1800 && runParamInRange b 0 600 && runParamInRange c 600 7200 && runParamInRange d 4 600
        && decide (p.syncMargin < p.preroll)) = true ↔ RunParamsFit p a b c d := by
  simp only [RunParamsFit, Bool.and_eq_true, decide_eq_true_eq, runParamInRange_iff, Nat.zero_le, true_and, and_assoc]

/-- Settles O49: each request is one test, whose two outcomes are stated. -/
theorem runSettingsRequests : Obligations.RunSettingsRequests := by
  intro s q rest
  refine ⟨fun head => ?reset, fun a b c d head => ?set⟩
  case reset =>
    have served := exec_served (c := .resetRun) head rfl rfl
    have answer : answerResetRun (dequeued s rest) = if !runHeld s then refuseWith (dequeued s rest) .notHeld
        else ⟨enterPhase ((dequeued s rest).updateRun (fun r =>
          { r with current := none, holdCause := none, holdPending := none })) .idle, .ok, []⟩ := rfl
    refine ⟨fun live => refuses_of served ?_, fun held => ?_⟩
    · rw [answer, if_pos]
      simpa [runHeld] using live
    · rw [answer, if_neg (by simp [runHeld, held])] at served
      exact ⟨_, served, link_replied (raiseNotice_onlyNotices _ _) .ok [], rfl, raiseNotice_noticed _ _, rfl⟩
  case set =>
    have served := exec_served (c := .setRunParameters) head rfl rfl
    have fit := runParamsFit_iff (mergeRunParams s.runParams a b c d) a b c d
    have answer : answerSetRunParameters a b c d (dequeued s rest)
        = if runParamInRange a 60 1800 && runParamInRange b 0 600 && runParamInRange c 600 7200 && runParamInRange d 4 600
              && decide ((mergeRunParams s.runParams a b c d).syncMargin < (mergeRunParams s.runParams a b c d).preroll) then
            ⟨{ dequeued s rest with runParams := mergeRunParams s.runParams a b c d }, .ok,
              runParamBytes (mergeRunParams s.runParams a b c d)⟩
          else refuseWith (dequeued s rest) .range := rfl
    refine ⟨fun fits => ?_, fun outside => refuses_of served ?_⟩
    · rw [answer, if_pos (fit.2 fits)] at served
      exact served
    · rw [answer, if_neg (mt fit.1 outside)]

/-! ### SET CUE LINE and FIRE (R168, R173) -/

theorem ofNat?_none {n : Nat} (h : 7 < n) : Unit8.ofNat? n = none := by
  obtain ⟨k, rfl⟩ := Nat.exists_eq_add_of_le' h
  rfl

theorem polarityOf?_none {k : Nat} (h : 1 < k) : polarityOf? k = none := by
  match k with
  | 0 | 1 => omega
  | k + 2 => rfl

theorem answerSetCueLine_bad {n k : Nat} (h : 7 < n ∨ 1 < k) (s : State) : answerSetCueLine n k s = refuseWith s .badRequest := by
  unfold answerSetCueLine
  rcases h with h | h
  · rw [ofNat?_none h]
  · rw [polarityOf?_none h]
    cases Unit8.ofNat? n <;> rfl

theorem answerFire_eq {n k : Nat} {g : CueLineId} (line : Unit8.ofNat? n = some g) (s : State) :
    answerFire n k s = if !within 1 255 k then refuseWith s .range
      else if s.stopAsserted then refuseWith s .stopped
      else ⟨setCueLine s g ((s.cueLine g).pulse k), .ok, []⟩ := by
  unfold answerFire
  rw [line]

theorem within_iff (lo hi n : Nat) : within lo hi n = true ↔ lo ≤ n ∧ n ≤ hi := by simp [within]

/-- Settles O50: the tests of the two requests, in their order. -/
theorem cueRequestsSetLine : Obligations.CueRequestsSetLine := by
  intro s q rest n k
  refine ⟨fun head => ?set, fun head => ?fire⟩
  case set =>
    have served := exec_served (c := .setCueLine) head rfl rfl
    refine ⟨fun bad => refuses_of served (answerSetCueLine_bad bad _), fun g p line polarity => ⟨served.trans ?_, ?_⟩⟩
    · rw [answerSetCueLine, line, polarity]
      rfl
    · cases p <;> rfl
  case fire =>
    have served := exec_served (c := .fire) head rfl rfl
    refine ⟨fun bad => refuses_of served ?_, fun g line => ?_⟩
    · rw [answerFire, ofNat?_none bad]
    rw [answerFire_eq line] at served
    have width := within_iff 1 255 k
    refine ⟨fun outside => refuses_of served (if_pos ?_), fun low high stop => refuses_of served ?_, fun low high released =>
      served.trans ?_⟩
    · rw [Bool.not_eq_true', ← Bool.not_eq_true, width]
      omega
    · rw [width.2 ⟨low, high⟩, dequeued_stopAsserted, stop]
      rfl
    · rw [width.2 ⟨low, high⟩, dequeued_stopAsserted, released]
      rfl

/-! ### SELECT and the reads (R99, R141, R163, R164, R177, R190) -/

section bytes

theorem transportByte_eq (x : Option Transport) :
    namedOrAbsent (x.map Transport.code) = u8 (match x with | some n => n.code | none => 255) := by cases x <;> rfl

theorem runModeByte_eq (x : Option RunMode) :
    namedOrAbsent (x.map RunMode.code) = u8 (match x with | some x => x.code | none => 255) := by cases x <;> rfl

theorem holdCauseByte_eq (x : Option HoldCause) :
    namedOrAbsent (x.map HoldCause.code) = u8 (match x with | some c => c.code | none => 255) := by cases x <;> rfl

theorem holdPendingByte_eq (x : Option PendingHold) :
    namedOrAbsent (x.map (fun p => p.cause.code)) = u8 (match x with | some x => x.cause.code | none => 255) := by
  cases x <;> rfl

theorem cueSetModeByte_eq (x : Option CueSet) :
    namedOrAbsent (x.map (fun c => c.mode.code)) = u8 (match x with | some c => c.mode.code | none => 255) := by
  cases x <;> rfl

theorem eventHandleBytes_eq (x : Option Event) :
    countOrNone (x.map Event.handle) = u16 (match x with | some e => e.handle | none => 65535) := by cases x <;> rfl

theorem cueSetHandleBytes_eq (x : Option CueSet) :
    countOrNone (x.map CueSet.handle) = u16 (match x with | some c => c.handle | none => 65535) := by cases x <;> rfl

theorem insertionOrAbsent_eq (x : Option Nat) :
    x.getD Config.absentInsertion = (match x with | some n => n | none => Config.absentInsertion) := by cases x <;> rfl

theorem countOrNone_eq (x : Option Nat) : countOrNone x = u16 (match x with | some n => n | none => 65535) := by cases x <;> rfl

theorem busByte_eq (x : BusSelect) : busByte x = u8 (match x with | .machine m => m.toNat | .black => 8) := by cases x <;> rfl

theorem formBytes_eq (f : FrameForm) : formBytes f = u8 f.code ++ u16 (match f with | .transition j => j | _ => 65535) := by
  cases f <;> rfl

theorem labelOrAbsent_map (f : Nat → Label) (x : Option Nat) :
    labelOrAbsent (x.map f) = (match x with | some n => labelBytes (f n) | none => List.replicate 5 0xff#8) := by
  cases x <;> rfl

theorem positionBytes_map (f : Nat → Label) (x : Option Nat) (q : Quality) :
    positionBytes (x.map f) q
      = (match x with | some n => labelBytes (f n) | none => List.replicate 5 0xff#8) ++ u8 (if x = none then 255 else q.code) := by
  cases x <;> rfl

theorem leaderBytes_eq (l : Leader) :
    leaderBytes l = (match l with
      | .noLeader => u8 255 ++ i32 0
      | .timeline => u8 16 ++ i32 0
      | .machine m off => u8 m.toNat ++ i32 off) := by cases l <;> rfl

theorem speedOrNone_eq (x : Option Int) : speedOrNone x = (match x with | some v => i16 v | none => u16 32768) := by
  cases x <;> rfl

end bytes

theorem selectOf?_machine {n : Nat} {m : MachineId} (h : Unit8.ofNat? n = some m) :
    selectOf? n = some (.machine m) := by
  unfold selectOf?
  rw [h]
  split
  · rename_i eight
    subst eight
    cases h
  · rfl

theorem effectsData_none (s : State) :
    effectsData s none = u8 (match s.effects.manual with | .machine m => m.toNat | .black => 8) ++ flagByte s.effects.freeze
      ++ u8 (match s.effects.frame.aSelect with | .machine m => m.toNat | .black => 8)
      ++ u8 (match s.effects.frame.bSelect with | .machine m => m.toNat | .black => 8)
      ++ u16 s.effects.frame.level ++ u8 s.effects.form.code
      ++ u16 (match s.effects.form with | .transition j => j | _ => 65535)
      ++ u16 (match s.effects.programme with | some e => e.handle | none => 65535) := by
  simp only [effectsData, busByte_eq, formBytes_eq, eventHandleBytes_eq, List.append_nil, List.append_assoc]

theorem effectsData_some (s : State) (l : Nat) :
    effectsData s (some l) = effectsData s none ++ (u8 ((s.effects.frame.lines[l]?).getD []).length
      ++ ((s.effects.frame.lines[l]?).getD []).flatMap (fun x => u16 x.start ++ u16 x.stop)) := by
  simp only [effectsData, spanListBytes, List.append_nil, List.getD_eq_getElem?_getD, List.flatMap_def]

theorem scopeBytes_eq (s : State) (x : Option Scope) :
    scopeBytes s x = (match x with
      | none => u8 255
      | some (.single h) => u8 0 ++ u16 h
      | some (.range a z) => u8 1 ++ labelBytes (labelOf (timelineMode s) (positionOfOffset s a))
          ++ labelBytes (labelOf (timelineMode s) (positionOfOffset s z))) := by
  rcases x with _ | ⟨h⟩ | ⟨a, z⟩ <;> rfl

theorem locateBytes_eq (s : State) (m : MachineId) (x : Option Locate) :
    locateBytes s m x = (match x with
      | some l => labelBytes (labelOf (modeOf s m) l.target) ++ u8 l.owner.code ++ flagByte l.acknowledged ++ u16 l.mismatches
      | none => List.replicate 5 0xff#8 ++ u8 255 ++ [Config.absentFlag] ++ u16 65535) := by cases x <;> rfl

theorem compareBytes_eq (s : State) (x : Option Compare) :
    compareBytes s x = (match x with
      | some c => labelBytes (labelOf (timelineMode s) c.position) ++ u8 c.width
      | none => List.replicate 5 0xff#8 ++ u8 0) := by cases x <;> rfl

theorem timesBytes_eq (s : State) (x : Option RunTimes) :
    timesBytes s x = (match x with
      | some t => labelBytes (labelOf (timelineMode s) t.t0) ++ u8 t.editOns.length
          ++ t.editOns.flatMap (fun x => labelBytes (labelOf (timelineMode s) x.position) ++ u8 x.tracks.code)
          ++ labelBytes (labelOf (timelineMode s) t.e0) ++ labelBytes (labelOf (timelineMode s) t.syncDeadline)
          ++ labelBytes (labelOf (timelineMode s) t.editOff) ++ labelBytes (labelOf (timelineMode s) t.postrollEnd)
      | none => []) := by
  cases x with
  | none => rfl
  | some t => simp only [timesBytes, editOnBytes, List.flatMap_def, timelineLabel, List.append_assoc]

theorem activeRunBytes_eq (s : State) :
    activeRunBytes s = if s.run.phase = .idle ∨ s.run.phase = .held then []
      else timesBytes s s.run.times ++ labelOrAbsent ((currentPosition s).map (timelineLabel s)) := by
  unfold activeRunBytes
  cases s.run.phase <;> rfl

/-- The head request is a read that answers with a report and changes nothing. -/
theorem read_served {c : Instr} {s : State} {q : RequestMessage} {rest : List RequestMessage} {data data' : List Byte}
    (served : exec c s = .next (replyTo q ⟨dequeued s rest, .ok, data⟩)) (report : data = data') :
    exec c s = .next (replied q rest .ok data' s) := by
  rw [served, report]
  rfl

theorem Unit8.toNat_of_ofNat? {n : Nat} {m : Unit8} (h : Unit8.ofNat? n = some m) : m.toNat = n := by
  unfold Unit8.ofNat? at h
  split at h <;> cases h <;> rfl

/-- Settles O53: SELECT's three outcomes, and each report as the concatenation of its elements. -/
theorem selectAndReadRequests : Obligations.SelectAndReadRequests := by
  intro s q rest
  refine ⟨fun n head => ?select, fun head => exec_served (c := .readStatus) head rfl rfl, ?effects, fun m head => ?machine,
    fun head => ?run, fun n head => ?cue⟩
  case select =>
    have served := exec_served (c := .select) head rfl rfl
    refine ⟨fun bad => refuses_of served ?_, fun black => served.trans ?_, fun m machine => served.trans ?_⟩
    · rw [answerSelect, selectOf?, if_neg (by omega), ofNat?_none (by omega)]
      rfl
    · rw [black]
      rfl
    · rw [answerSelect, selectOf?_machine machine, ← Unit8.toNat_of_ofNat? machine]
      rfl
  case effects =>
    have noLine := effectsData_none s
    refine ⟨fun l head inside => ?_, fun head => ?_, fun l head outside line => ?_⟩
    · have frame : l ≠ 65535 := by
        intro none
        subst none
        revert inside
        cases s.timeline.standard <;> decide
      refine read_served ((exec_served (c := .readEffects) head rfl rfl).trans ?_)
        ((effectsData_some s l).trans (by rw [noLine, List.append_assoc _ (u8 _)] <;> rfl))
      rw [answerReadEffects, if_neg frame, dequeued_timeline, if_pos inside]
      rfl
    · exact read_served (exec_served (c := .readEffects) head rfl rfl) noLine
    · refine refuses_of (exec_served (c := .readEffects) head rfl rfl) ?_
      rw [answerReadEffects, if_neg line, dequeued_timeline, if_neg (by omega)]
  case machine =>
    refine read_served (exec_served (c := .readMachine) head rfl rfl) ?_
    show machineData s m = _
    simp only [machineData, transportByte_eq, locateBytes_eq, leaderBytes_eq, positionBytes_map, labelOrAbsent_map, speedOrNone_eq,
      List.append_assoc] <;> rfl
  case run =>
    refine read_served (exec_served (c := .readRun) head rfl rfl) ?_
    show runData s = _
    simp only [runData, runModeByte_eq, scopeBytes_eq, countOrNone_eq, holdCauseByte_eq, holdPendingByte_eq, cursorBytes,
      insertionOrAbsent_eq, activeRunBytes_eq, timesBytes_eq, labelOrAbsent_map, List.append_assoc] <;> rfl
  case cue =>
    refine ⟨fun bad => refuses_of (exec_served (c := .readCueLine) head rfl rfl) ?_, fun g line => ?_⟩
    · rw [answerReadCueLine, ofNat?_none bad]
    · refine read_served ((exec_served (c := .readCueLine) head rfl rfl).trans (by rw [answerReadCueLine, line])) ?_
      show cueLineData s g = _
      simp only [cueLineData, compareBytes_eq, cueSetHandleBytes_eq, cueSetModeByte_eq, List.flatMap_def, List.append_assoc] <;> rfl

end Sys2Proof.Machine
end

section
/-! SUPPORT and the statement of how a port holds requests (R71, R83 to R85). -/

namespace Sys2Proof.Machine

/-! ### The motion request in a queue -/

theorem replaceMotion_at {a z : List QueuedRequest} {x : QueuedRequest} (q : QueuedRequest) (motion : x.request.isMotion = true)
    (first : ∀ y ∈ a, y.request.isMotion = false) : replaceMotion q (a ++ x :: z) = a ++ q :: z := by
  induction a with
  | nil => exact if_pos motion
  | cons y a ih =>
    obtain ⟨other, first⟩ := List.forall_mem_cons.1 first
    rw [List.cons_append, replaceMotion, if_neg (by rw [other]; decide), ih first, List.cons_append]

theorem headIsMotion_at {a z : List QueuedRequest} {x : QueuedRequest} (motion : x.request.isMotion = true)
    (first : ∀ y ∈ a, y.request.isMotion = false) : headIsMotion (a ++ x :: z) = true ↔ a = [] := by
  cases a with
  | nil => simpa [headIsMotion] using motion
  | cons y a => simpa [headIsMotion] using first y List.mem_cons_self

theorem any_isMotion_at {a z : List QueuedRequest} {x : QueuedRequest} (motion : x.request.isMotion = true) :
    (a ++ x :: z).any (fun y => y.request.isMotion) = true :=
  List.any_eq_true.2 ⟨x, List.mem_append_right a List.mem_cons_self, motion⟩

theorem any_isMotion_false {q : List QueuedRequest} (none : ∀ y ∈ q, y.request.isMotion = false) :
    ¬ q.any (fun y => y.request.isMotion) = true := by
  rw [List.any_eq_true]
  rintro ⟨y, hy, motion⟩
  rw [none y hy] at motion
  cases motion

/-! ### An EDIT OFF placed ahead (R85) -/

theorem dropNewest_none {q : List QueuedRequest} (all : ∀ y ∈ q, y.request.isEditOff = true) : dropNewest q = none := by
  induction q with
  | nil => rfl
  | cons y q ih =>
    obtain ⟨off, all⟩ := List.forall_mem_cons.1 all
    rw [dropNewest, ih all]
    exact if_pos off

/-- The newest request that is not an EDIT OFF is the one with nothing but EDIT OFF behind it. -/
theorem dropNewest_at {a z : List QueuedRequest} {x : QueuedRequest} (discarded : x.request.isEditOff = false)
    (behind : ∀ y ∈ z, y.request.isEditOff = true) : dropNewest (a ++ x :: z) = some (a ++ z, x) := by
  induction a with
  | nil =>
    rw [List.nil_append, dropNewest, dropNewest_none behind]
    exact if_neg (by rw [discarded]; decide)
  | cons y a ih => rw [List.cons_append, dropNewest, ih, List.cons_append]

section ahead

variable {p : Port} {line behind : List QueuedRequest} (queue : p.queue = line ++ behind)
  (onLine : line.length = if p.headOnLine then 1 else 0)

include queue onLine

theorem Port.lineHead_eq : p.lineHead = line := by
  unfold Port.lineHead
  split at onLine
  · rename_i held
    rw [if_pos held, queue, ← onLine, List.take_left]
  · rename_i free
    rw [if_neg free, List.eq_nil_of_length_eq_zero onLine]

theorem Port.behindLine_eq : p.behindLine = behind.filter (fun y => !y.request.isEditOn) := by
  unfold Port.behindLine
  split at onLine
  · rename_i held
    rw [if_pos held, queue, ← onLine, List.drop_left]
  · rename_i free
    rw [if_neg free, queue, List.eq_nil_of_length_eq_zero onLine, List.nil_append]

end ahead

/-! ### A port that is not ONLINE (R71) -/

theorem Port.place_refused {p : Port} {e : Result} (h : linkRefusal p.link = some e) (r : DeckRequest) (q : QueuedRequest) :
    p.placeMotion r = .error e ∧ p.placeEdit q = .error e ∧ p.placeAhead q = .error e := by
  unfold Port.placeMotion Port.placeEdit Port.placeAhead
  rw [h]
  exact ⟨rfl, rfl, rfl⟩

theorem Port.placeMotion_online {p : Port} (online : p.link = .online) (r : DeckRequest) :
    p.placeMotion r = if p.queue.any (fun x => x.request.isMotion) then
        .ok { (if headIsMotion p.queue then p.offLine else p) with queue := replaceMotion ⟨r, none⟩ p.queue }
      else if p.queue.length < Config.portQueueCapacity then .ok { p with queue := p.queue ++ [⟨r, none⟩] }
      else .error .queueFull := by
  unfold Port.placeMotion
  rw [online]
  rfl

theorem Port.placeAhead_online {p : Port} (online : p.link = .online) (q : QueuedRequest) :
    p.placeAhead q = if (p.lineHead ++ p.behindLine).length < Config.portQueueCapacity then
        .ok ({ p with queue := p.lineHead ++ q :: p.behindLine }, none)
      else match dropNewest p.behindLine with
        | some (rest, lost) => .ok ({ p with queue := p.lineHead ++ q :: rest }, some lost)
        | none => .error .queueFull := by
  unfold Port.placeAhead
  rw [online]
  rfl

/-- Settles O34: each kind's own place in the queue of an ONLINE port, and the refusal of every other link state. -/
theorem portHoldsRequestsByKind : Obligations.PortHoldsRequestsByKind := by
  intro p
  refine ⟨fun online => ⟨fun r a x z queue motion first => ?replaces, fun r none => ?motion, fun e => ?edit,
    fun e line behind queue onLine => ?ahead⟩, fun link r e => ?_, fun link r e => ?_, fun link r e => ?_⟩
  case replaces =>
    have head : headIsMotion p.queue = true ↔ a = [] := by
      rw [queue]
      exact headIsMotion_at motion first
    have placed := Port.placeMotion_online online r
    rw [if_pos (by rw [queue]; exact any_isMotion_at motion), show replaceMotion ⟨r, none⟩ p.queue = a ++ ⟨r, none⟩ :: z by
      rw [queue]
      exact replaceMotion_at _ motion first] at placed
    refine ⟨_, placed, rfl, ?_⟩
    by_cases atHead : a = []
    · rw [if_pos (head.2 atHead)]
      refine ⟨rfl, ?_, fun behind => absurd atHead behind, fun _ => Port.offLine_headOnLine p⟩
      unfold Port.offLine
      cases p.exchange <;> rfl
    · rw [if_neg (mt head.1 atHead)]
      exact ⟨rfl, rfl, fun _ => rfl, fun nil => absurd nil atHead⟩
  case motion =>
    have placed := Port.placeMotion_online online r
    rw [if_neg (any_isMotion_false none)] at placed
    exact ⟨fun room => placed.trans (if_pos room), fun full => placed.trans (if_neg (Nat.not_lt.2 full))⟩
  case edit =>
    have placed : p.placeEdit e = if p.queue.length < Config.portQueueCapacity then .ok { p with queue := p.queue ++ [e] }
        else .error .queueFull := by
      unfold Port.placeEdit
      rw [online]
      rfl
    exact ⟨fun room => placed.trans (if_pos room), fun full => placed.trans (if_neg (Nat.not_lt.2 full))⟩
  case ahead =>
    have placed := Port.placeAhead_online online e
    rw [Port.lineHead_eq queue onLine, Port.behindLine_eq queue onLine, List.length_append] at placed
    refine ⟨fun room => placed.trans (if_pos room), fun a x z full kept discarded behind => ?_⟩
    refine placed.trans ((if_neg (Nat.not_lt.2 full)).trans ?_)
    rw [kept, dropNewest_at discarded behind]
  · exact Port.place_refused (by rw [link]; rfl) r e
  · exact Port.place_refused (by rw [link]; rfl) r e
  · exact Port.place_refused (by rw [link]; rfl) r e

end Sys2Proof.Machine
end

section
/-! The statements of the deck link's plain events (R75 to R87), of the effects port's frames (R147 to R149) and of the cue
lines at a field start (R171). -/

namespace Sys2Proof.Machine

/-! ### The deck link (R75, R76, R82, R87) -/

theorem portField_offline {s : State} {m : MachineId} (offline : s.link m = .offline) : portField s m = recoveryField s m := by
  unfold portField
  rw [offline]

theorem Port.sending_of {p : Port} {x : Exchange} (exchange : p.exchange = some x) (sending : x.progress = .sending) :
    p.sending = true := by
  unfold Port.sending
  rw [exchange]
  simp [sending]

theorem Port.received_of {p : Port} {x : Exchange} {rx : List Byte} (exchange : p.exchange = some x)
    (listening : x.progress = .listening rx) : p.received = some rx := by
  unfold Port.received
  rw [exchange]
  simp only [listening]

theorem Port.withProgress_of {p : Port} {x : Exchange} (exchange : p.exchange = some x) (g : Progress) :
    p.withProgress g = { p with exchange := some { x with progress := g } } := by
  unfold Port.withProgress
  rw [exchange]
  rfl

/-- Settles O39: each event's test holds, and its step writes the one port. -/
theorem deckLinkEventsChangePortAlone : Obligations.DeckLinkEventsChangePortAlone := by
  intro s m
  refine ⟨fun due offline last => ?poll, fun present enabled => ⟨?forward, ?back⟩, fun forward deaf => ?deaf,
    fun x exchange sending => ?sent, fun x rx c exchange listening incomplete => ?character⟩
  case poll =>
    have test : (portDue s m && s.link m == .offline && (s.port m).recovery - 1 == 0) = true := by
      have zero : (s.port m).recovery - 1 = 0 := by omega
      simp only [portDue, due, offline, zero, BEq.rfl, Bool.and_self]
    have exec : exec (.recoveryPoll m) s = .next (takeField s (.port m)) := if_pos test
    rw [exec, takeField_waiting due, actOnField,
      portField_offline (s := { s with waiting := s.waiting.erase (.port m) }) offline, recoveryField, if_pos]
    · rfl
    · show (s.port m).recovery - 1 = 0
      omega
  case forward => exact if_pos (by simp [present, enabled])
  case back => exact if_pos (by simp [present, enabled])
  case deaf =>
    refine if_neg ?_
    rcases deaf with absent | disabled
    · simp [absent]
    · simp [disabled]
  case sent =>
    have exec : exec (.requestSent m) s = .next (s.setPort m ((s.port m).withProgress (.listening []))) :=
      if_pos (Port.sending_of exchange sending)
    rw [exec, Port.withProgress_of exchange]
  case character =>
    show execReplyCharacter m c s = _
    rw [execReplyCharacter, Port.received_of exchange listening]
    dsimp only
    rw [if_pos incomplete, Port.withProgress_of exchange]

/-! ### The form of a field's frame (R149) -/

theorem formOf_quiet {s : State} (phase : s.run.phase = .idle ∨ s.run.phase = .held ∨ s.run.phase = .cueing) :
    formOf s = .manual := by
  have off : (s.run.phase.active && s.run.phase != .cueing) = false := by
    rcases phase with phase | phase | phase <;> rw [phase] <;> rfl
  unfold formOf
  split
  · rw [off]
    rfl
  · rfl
  · rfl

theorem formOf_dark {s : State}
    (dark : currentPosition s = none ∨ ∀ e, s.effects.programme = some e → e.record.tracks.v = false) :
    formOf s = .manual := by
  unfold formOf
  split
  · rename_i e p programme position
    rcases dark with noPosition | noVideo
    · rw [noPosition] at position
      cases position
    · rw [noVideo e programme, Bool.and_false]
      rfl
  · rfl
  · rfl

/-- In ROLLING, EDITING and POSTROLL the position of the field gives the form of a programme with V. -/
theorem formOf_shown {s : State} {e : Event} {p : Nat} (programme : s.effects.programme = some e)
    (position : currentPosition s = some p)
    (phase : s.run.phase = .rolling ∨ s.run.phase = .editing ∨ s.run.phase = .postroll) (video : e.record.tracks.v = true) :
    formOf s = if foldDiff (dayRec s) p e.record.recordIn < 0 then .leadIn
      else if e.record.kind.twoSources
          && foldDiff (dayRec s) p e.record.recordIn < ((e.record.transition.getD 0 : Nat) : Int) then
        .transition (foldDiff (dayRec s) p e.record.recordIn).toNat
      else .flip := by
  have shown : (s.run.phase.active && s.run.phase != .cueing) = true := by
    rcases phase with phase | phase | phase <;> rw [phase] <;> rfl
  unfold formOf
  rw [programme, position]
  dsimp only
  rw [shown, video]
  exact if_pos rfl

/-- With the freeze flag clear, what a field leaves of the Effects Generator. -/
theorem effectsField_live {s : State} (live : s.effects.freeze = false) :
    (effectsField s).effects =
      { s.effects with
        frame := frameOf s.timeline.standard.lines s.effects.manual (programmeRecord s) (formOf s)
          ((stepperFor s.timeline.standard.lines (programmeRecord s) s.effects.stepper (formOf s)).getD idleStepper)
        form := formOf s
        stepper := stepperFor s.timeline.standard.lines (programmeRecord s) s.effects.stepper (formOf s)
        framesSent := s.effects.framesSent + 1 } := by
  unfold effectsField
  rw [if_neg (by rw [live]; decide)]
  rfl

theorem Kind.twoSources_iff (k : Kind) : k.twoSources = true ↔ k = .mix ∨ k = .wipe ∨ k = .box := by cases k <;> simp [Kind.twoSources]

theorem fromSelect_of {r : Record} {x : Source} (source : r.source2 = some x) : fromSelect r = .machine x.machine := by
  unfold fromSelect
  rw [source]

/-- Settles O54: the form decides the row, and each row is `frameOf` at that form. -/
theorem effectsFrameEachField : Obligations.EffectsFrameEachField := by
  intro s waits t
  have taken : t = effectsField { s with waiting := s.waiting.erase .effects } := takeField_waiting waits
  have frame : t = { s with effects := t.effects, waiting := s.waiting.erase .effects } := by
    rw [taken]
    exact effectsField_frame _
  by_cases frozen : s.effects.freeze = true
  · have effects : t.effects = { s.effects with framesSent := s.effects.framesSent + 1 } := by
      rw [taken]
      exact effectsField_frozen frozen
    rw [effects]
    refine ⟨?_, rfl, rfl, rfl, rfl, fun _ => ⟨rfl, rfl, rfl⟩, fun live => absurd (frozen.symm.trans live) (by decide)⟩
    rw [frame, effects]
  have live : s.effects.freeze = false := by simpa using frozen
  have effects : t.effects = _ := (congrArg State.effects taken).trans (effectsField_live live)
  refine ⟨frame, ?_, ?_, ?_, ?_, fun h => absurd h frozen, fun _ => ?_⟩
  · rw [effects]
  · rw [effects]
  · rw [effects]
  · rw [effects]
  have form : t.effects.form = formOf s := congrArg EffectsGenerator.form effects
  have stepper : t.effects.stepper
      = stepperFor s.timeline.standard.lines (programmeRecord s) s.effects.stepper (formOf s) :=
    congrArg EffectsGenerator.stepper effects
  have picture : t.effects.frame = frameOf s.timeline.standard.lines s.effects.manual (programmeRecord s) (formOf s)
      ((stepperFor s.timeline.standard.lines (programmeRecord s) s.effects.stepper (formOf s)).getD idleStepper) :=
    congrArg EffectsGenerator.frame effects
  clear effects
  rw [form, stepper, picture]
  refine ⟨rfl, frameOf_lines _ _ _ _ _, fun phase => ?_, fun dark => ⟨formOf_dark dark, ?_⟩,
    fun e p programme position phase video => ?_⟩
  · rw [formOf_quiet phase]
    rfl
  · rw [formOf_dark dark]
    rfl
  have record : programmeRecord s = some e.record := by rw [programmeRecord, programme]; rfl
  rw [record, formOf_shown programme position phase video]
  intro j dark source1
  refine ⟨fun cut => ?_, fun x d kind source transition => ?_⟩
  · have one : e.record.kind.twoSources = false := by rw [cut]; rfl
    rw [one, Bool.false_and]
    split
    · refine ⟨rfl, ?_⟩
      simp only [frameOf, one]
      rfl
    · exact ⟨rfl, rfl⟩
  · have two : e.record.kind.twoSources = true := (Kind.twoSources_iff _).2 kind
    have from2 := fromSelect_of source
    rw [two, transition, Option.getD_some, Bool.true_and]
    refine ⟨fun before => ?_, fun beyond started => ?_, fun started inside => ?_⟩
    · rw [if_pos before]
      refine ⟨rfl, ?_⟩
      simp only [frameOf, two, from2]
      rfl
    · rw [if_neg (Int.not_lt.2 started), if_neg (by simpa using beyond)]
      exact ⟨rfl, rfl⟩
    · rw [if_neg (Int.not_lt.2 started), if_pos (decide_eq_true inside)]
      simp only [frameOf, stepperFor, Option.getD_some, from2]
      refine ⟨rfl, ?_, ?_, rfl, fun wipe => ?_, fun w wipe => ?_⟩
      · cases e.record.wipe <;> rfl
      · cases e.record.wipe <;> rfl
      · rw [wipe]
        exact ⟨rfl, fun r stepper => by rw [Option.some.inj stepper]⟩
      · rw [wipe]
        exact ⟨rfl, fun r stepper => by rw [Option.some.inj stepper]⟩

/-! ### The cue lines at a field start (R171) -/

/-- An armed compare that is reached fires, and the rest of the turn goes on from there. -/
theorem CueLine.fireReached_reached {day p n : Nat} {l : CueLine} {c : Compare} (armed : l.armed = some c)
    (due : 0 ≤ foldDiff day p c.position) : CueLine.fireReached day p (n + 1) l = CueLine.fireReached day p n (l.fireArmed c) := by
  rw [CueLine.fireReached, armed]
  exact if_pos (decide_eq_true due)

/-- A line whose armed compare, if any, is not reached stands. -/
theorem CueLine.fireReached_rests {day p : Nat} {l : CueLine}
    (early : ∀ c, l.armed = some c → foldDiff day p c.position < 0) (n : Nat) : CueLine.fireReached day p n l = l := by
  cases n with
  | zero => rfl
  | succ n =>
    rw [CueLine.fireReached]
    split
    · rename_i c armed
      exact if_neg (by simpa [reached] using early c armed)
    · rfl

theorem CueLine.count_keeps (l : CueLine) :
    l.count = { l with active := l.count.active, counter := l.count.counter } := by
  unfold CueLine.count
  split
  · split <;> rfl
  · rfl

theorem CueLine.count_fireArmed (l : CueLine) (c : Compare) : l.count.fireArmed c = l.fireArmed c := by
  rw [CueLine.count_keeps]
  rfl

theorem CueLine.count_armed (l : CueLine) : l.count.armed = l.armed := by rw [CueLine.count_keeps]

theorem CueLine.count_compares (l : CueLine) : l.count.compares = l.compares := by
  rw [CueLine.count_keeps]
  rfl

theorem CueLine.fires_of {day p : Nat} {l : CueLine} {c : Compare} (armed : l.armed = some c)
    (due : 0 ≤ foldDiff day p c.position) : l.fires day (some p) = true := by
  simp only [CueLine.fires, armed]
  exact decide_eq_true due

/-- The number of compares of a line with an armed one. -/
theorem CueLine.compares_armed {l : CueLine} {c : Compare} (armed : l.armed = some c) :
    l.compares = ((if l.buffered.isSome then 1 else 0) + l.pendingList.length) + 1 := by
  unfold CueLine.compares
  rw [armed]
  simp only [Option.isSome_some, if_true]
  omega

theorem CueLine.field_one {day p : Nat} {l : CueLine} {c : Compare} (armed : l.armed = some c)
    (due : 0 ≤ foldDiff day p c.position) (early : ∀ b, l.buffered = some b → foldDiff day p b.position < 0) :
    l.field day (some p) = l.fireArmed c := by
  rw [CueLine.field, CueLine.count_compares, CueLine.compares_armed armed,
    CueLine.fireReached_reached (l.count_armed.trans armed) due, CueLine.count_fireArmed]
  exact CueLine.fireReached_rests (l := l.fireArmed c) early _

theorem CueLine.field_two {day p : Nat} {l : CueLine} {a b : Compare} (armed : l.armed = some a) (buffered : l.buffered = some b)
    (none : l.pendingList = []) (dueA : 0 ≤ foldDiff day p a.position) (dueB : 0 ≤ foldDiff day p b.position) :
    l.field day (some p) = (l.fireArmed a).fireArmed b := by
  have two : l.count.compares = 2 := by
    rw [CueLine.count_compares, CueLine.compares_armed armed, buffered, none]
    rfl
  rw [CueLine.field, two, CueLine.fireReached_reached (l.count_armed.trans armed) dueA, CueLine.count_fireArmed,
    CueLine.fireReached_reached (l := l.fireArmed a) buffered dueB]
  rfl

theorem CueLine.field_none {day : Nat} {position : Option Nat} {l : CueLine}
    (early : position = none ∨ l.armed = none ∨ ∃ p c, position = some p ∧ l.armed = some c ∧ foldDiff day p c.position < 0) :
    l.field day position = l.count := by
  unfold CueLine.field
  split
  · rename_i p
    refine CueLine.fireReached_rests (fun c armed => ?_) _
    rw [CueLine.count_armed] at armed
    rcases early with none | none | ⟨q, b, position, armed', before⟩
    · cases none
    · rw [armed] at none
      cases none
    · rw [armed] at armed'
      cases position
      cases armed'
      exact before
  · rfl

theorem CueLine.count_down {l : CueLine} (active : l.active = true) (more : 1 < l.counter) :
    l.count = { l with counter := l.counter - 1 } := by
  unfold CueLine.count
  rw [if_pos active, if_neg (by omega)]

/-- The Cue Unit takes a field start: every line makes its turn, and nothing else changes. -/
theorem takeField_cue {s : State} (waits : s.waiting.contains .cue = true) (released : s.stopAsserted = false) :
    takeField s .cue
        = { s with cues := { s.cues with lines := (takeField s .cue).cues.lines }, waiting := s.waiting.erase .cue }
      ∧ ∀ g, (takeField s .cue).cueLine g = (s.cueLine g).field (dayRec s) (currentPosition s) := by
  rw [takeField_waiting waits]
  exact ⟨cueLinesField_frame _, cueLinesField_cueLine (s := { s with waiting := s.waiting.erase .cue }) released⟩

/-- Settles O51: what one line's turn makes of one or two compares reached, and of none. -/
theorem cueLinesCountAndFire : Obligations.CueLinesCountAndFire := by
  intro s g waits released l quietly
  obtain ⟨frame, lines⟩ := takeField_cue waits released
  have fire {p : Nat} {c : Compare} (position : currentPosition s = some p) (armed : l.armed = some c)
      (due : 0 ≤ foldDiff (dayRec s) p c.position) : exec (.cueFire g) s = .next (takeField s .cue) := by
    refine if_pos ?_
    have fires : (s.cueLine g).fires (dayRec s) (currentPosition s) = true := by
      rw [position]
      exact CueLine.fires_of armed due
    rw [cueWaits, waits, released, fires]
    rfl
  refine ⟨fun p c position armed due early => ?one, fun p a b position armed buffered dueA dueB none => ?two,
    fun active last early => ?ends⟩
  case one =>
    refine ⟨_, fire position armed due, frame, ?_⟩
    rw [lines, position, CueLine.field_one armed due early]
    rfl
  case two =>
    refine ⟨_, fire position armed dueA, frame, ?_⟩
    rw [lines, position, CueLine.field_two armed buffered none dueA dueB, CueLine.fireArmed, CueLine.fireArmed]
    simp only [CueLine.pulse, none]
    rfl
  case ends =>
    have exec : exec (.cuePulseEnd g) s = .next (takeField s .cue) := by
      refine if_pos ?_
      have ending : (s.cueLine g).ends = true := by
        rw [CueLine.ends, show (s.cueLine g).active = true from active, show (s.cueLine g).counter = 1 from last]
        rfl
      rw [cueWaits, waits, released, ending]
      rfl
    refine ⟨_, exec, frame, ?_, fun k active more none => ?_⟩
    · rw [lines, CueLine.field_none early, CueLine.count, show (s.cueLine g).active = true from active,
        show (s.cueLine g).counter = 1 from last]
      rfl
    · rw [lines, CueLine.field_none (.inr (.inl none)), CueLine.count_down active more]

end Sys2Proof.Machine
end

section
/-! SUPPORT and the statement of holds (R85, R110, R134 to R137): what a hold makes of the machines of the event, of the
recorder's port, and of the event. -/

namespace Sys2Proof.Machine

/-! ### What the end of a machine's motion leaves of its record -/

/-- The estimate, the marks and the transport are kept, a lock count is kept or cleared, and no claim is made. -/
structure RecHeld (x y : MachineRec) : Prop where
  position : y.position = x.position
  quality : y.quality = x.quality
  markIn : y.markIn = x.markIn
  markOut : y.markOut = x.markOut
  transport : y.transport = x.transport
  inWindow : y.inWindow = x.inWindow ∨ y.inWindow = 0
  outWindow : y.outWindow = x.outWindow ∨ y.outWindow = 0
  claimed : y.claimed = x.claimed ∨ y.claimed = false

theorem RecHeld.refl (x : MachineRec) : RecHeld x x := ⟨rfl, rfl, rfl, rfl, rfl, .inl rfl, .inl rfl, .inl rfl⟩

theorem kept_or_trans {α : Type} {a b c z : α} (h : b = a ∨ b = z) (k : c = b ∨ c = z) : c = a ∨ c = z :=
  k.elim (fun k => h.imp (k.trans ·) (k.trans ·)) .inr

theorem RecHeld.trans {x y z : MachineRec} (h : RecHeld x y) (k : RecHeld y z) : RecHeld x z where
  position := k.position.trans h.position
  quality := k.quality.trans h.quality
  markIn := k.markIn.trans h.markIn
  markOut := k.markOut.trans h.markOut
  transport := k.transport.trans h.transport
  inWindow := kept_or_trans h.inWindow k.inWindow
  outWindow := kept_or_trans h.outWindow k.outWindow
  claimed := kept_or_trans h.claimed k.claimed

/-- Every machine's record is as the end of its motion leaves it. -/
def RecordsHeld (s t : State) : Prop := ∀ m, RecHeld (s.machine m) (t.machine m)

namespace RecordsHeld

theorem refl (s : State) : RecordsHeld s s := fun _ => .refl _

theorem trans {s t u : State} (h : RecordsHeld s t) (k : RecordsHeld t u) : RecordsHeld s u := fun m => (h m).trans (k m)

theorem of_machines {s t : State} (h : t.machines = s.machines) : RecordsHeld s t := fun m => by
  unfold State.machine
  rw [h]
  exact .refl _

/-- A change of one record. -/
theorem of_others {s t : State} {m : MachineId} (others : ∀ n, n ≠ m → t.machine n = s.machine n)
    (record : RecHeld (s.machine m) (t.machine m)) : RecordsHeld s t := fun n => by
  by_cases hn : n = m
  · rw [hn]; exact record
  · rw [others n hn]; exact .refl _

theorem foldl {α : Type} {f : State → α → State} (hf : ∀ s a, RecordsHeld s (f s a)) (l : List α) (s : State) :
    RecordsHeld s (l.foldl f s) := foldl_rel refl (fun _ _ _ => trans) hf l s

end RecordsHeld

theorem changeMachine_held {s : State} {m : MachineId} {f : MachineRec → MachineRec}
    (h : RecHeld (s.machine m) (f (s.machine m))) : RecordsHeld s (changeMachine s m f) :=
  .of_others (fun _ hn => changeMachine_machine_other s f hn) (by rw [changeMachine_machine]; exact h)

theorem tryMotion_held (s : State) (m : MachineId) (r : DeckRequest) (v : Int) : RecordsHeld s (tryMotion s m r v) :=
  .of_others (fun n hn => (tryMotion_others s m r v n hn).2)
    (by rw [tryMotion_record]; exact ⟨rfl, rfl, rfl, rfl, rfl, .inl rfl, .inl rfl, .inl rfl⟩)

theorem reportLocateFailure_held (s : State) (m : MachineId) (l : Locate) (target : Label) (reason : LocateReason) :
    RecordsHeld s (reportLocateFailure s m l target reason).1 := fun n => by
  rw [reportLocateFailure_machine]
  exact .refl _

theorem failLocate_held (s : State) (m : MachineId) (reason : LocateReason) : RecordsHeld s (failLocate s m reason).1 := by
  unfold failLocate
  split
  · exact (changeMachine_held ⟨rfl, rfl, rfl, rfl, rfl, .inl rfl, .inl rfl, .inl rfl⟩).trans (reportLocateFailure_held _ m _ _ _)
  · exact .refl s

theorem releaseMachine_held (s : State) (m : MachineId) : RecordsHeld s (releaseMachine s m) := by
  unfold releaseMachine
  split
  · exact (tryMotion_held s m .stop 0).trans (changeMachine_held ⟨rfl, rfl, rfl, rfl, rfl, .inr rfl, .inr rfl, .inr rfl⟩)
  · exact .refl s

/-! ### A locate that ends keeps the claim -/

theorem failLocate_claimed (s : State) (m n : MachineId) (reason : LocateReason) :
    ((failLocate s m reason).1.machine n).claimed = (s.machine n).claimed := by
  unfold failLocate
  split
  · rw [reportLocateFailure_machine]
    by_cases hn : n = m
    · rw [hn, changeMachine_machine]
    · rw [changeMachine_machine_other _ _ hn]
  · rfl

/-! ### EDIT OFF placed by a hold (R85, R134 step 1) -/

theorem TrackSet.eq_none_of_isEmpty {t : TrackSet} (h : t.isEmpty = true) : t = TrackSet.none := by
  obtain ⟨v, a1, a2, a3, a4⟩ := t
  simp only [TrackSet.isEmpty, TrackSet.hasAudio, Bool.not_eq_true', Bool.or_eq_false_iff] at h
  obtain ⟨rfl, ⟨⟨rfl, rfl⟩, rfl⟩, rfl⟩ := h
  rfl

/-- The run record with no track in edit. -/
def editSetCleared (s : State) : State := s.updateRun (fun r => { r with editSet := TrackSet.none })

theorem editSetCleared_of_isEmpty {s : State} (h : s.run.editSet.isEmpty = true) : editSetCleared s = s := by
  unfold editSetCleared State.updateRun
  rw [← TrackSet.eq_none_of_isEmpty h]

/-- Whatever the recorder's port makes of the EDIT OFF, the tracks in edit are cleared, and beyond ports and machines nothing else
is changed; the claims stand. -/
theorem holdEditOff_frame (s : State) :
    MachinesOnly (editSetCleared s) (holdEditOff s) ∧ RecordsHeld s (holdEditOff s)
      ∧ ∀ n, ((holdEditOff s).machine n).claimed = (s.machine n).claimed := by
  unfold holdEditOff
  split
  · rename_i empty
    rw [editSetCleared_of_isEmpty empty]
    exact ⟨.refl s, .refl s, fun _ => rfl⟩
  dsimp only
  split
  · exact ⟨.refl _, .of_machines rfl, fun _ => rfl⟩
  split
  · exact ⟨.refl _, .of_machines rfl, fun _ => rfl⟩
  rename_i m _ _ p lost _
  have placed := MachinesOnly.setPort (editSetCleared s) m p
  split
  · split
    · exact ⟨placed.trans (failLocate_machinesOnly _ m _), fun n => failLocate_held ((editSetCleared s).setPort m p) m .lost n, fun n => failLocate_claimed _ m n _⟩
    · exact ⟨placed, .of_machines rfl, fun _ => rfl⟩
  · exact ⟨placed, .of_machines rfl, fun _ => rfl⟩

/-- With room ahead of the recorder's queue, the EDIT OFF stands directly behind the request on the line. -/
theorem holdEditOff_queue {s : State} {rec : MachineId} {e : QueuedRequest} {rest : List QueuedRequest}
    (recorder : s.recorder = some rec) (online : s.link rec = .online) (tracks : s.run.editSet.isEmpty = false)
    (queue : (s.port rec).queue = e :: rest) (onLine : (s.port rec).headOnLine = true) (room : rest.length < 3) :
    ((holdEditOff s).port rec).queue
      = e :: ⟨.editOff s.run.editSet, s.run.current⟩ :: rest.filter (fun y => !y.request.isEditOn) := by
  have one : ([e] : List QueuedRequest).length = if (s.port rec).headOnLine then 1 else 0 := by rw [onLine]; rfl
  have placed := Port.placeAhead_online online (editOffRequest s)
  rw [Port.lineHead_eq (line := [e]) queue one, Port.behindLine_eq (line := [e]) queue one, if_pos] at placed
  · unfold holdEditOff
    rw [if_neg (by rw [tracks]; decide)]
    dsimp only
    rw [recorder]
    dsimp only
    rw [placed]
    simp only [State.setPort_port]
    rfl
  · have := List.length_filter_le (fun y : QueuedRequest => !y.request.isEditOn) rest
    have capacity : Config.portQueueCapacity = 4 := rfl
    simp only [List.length_append, List.length_cons, List.length_nil]
    omega

/-! ### Releases (R110) -/

/-- A machine is released: unclaimed, and FREE without a leader if it was claimed; what a release leaves, later ones leave. -/
theorem releases_released (ms : List MachineId) (s : State) {m : MachineId} (hm : m ∈ ms) :
    ((ms.foldl releaseMachine s).machine m).claimed = false
      ∧ ((s.machine m).claimed = true →
          ((ms.foldl releaseMachine s).machine m).control = .free ∧ ((ms.foldl releaseMachine s).machine m).leader = .noLeader) := by
  have turn (t : State) : ((releaseMachine t m).machine m).claimed = false
      ∧ ((t.machine m).claimed = true →
        ((releaseMachine t m).machine m).control = .free ∧ ((releaseMachine t m).machine m).leader = .noLeader) := by
    by_cases claimed : (t.machine m).claimed = true
    · rw [releaseMachine_record claimed]
      exact ⟨rfl, fun _ => ⟨rfl, rfl⟩⟩
    · rw [releaseMachine_unclaimed (by simpa using claimed)]
      exact ⟨by simpa using claimed, fun h => absurd h claimed⟩
  have free_of_unclaimed : ∀ (ms : List MachineId) (t : State),
      ((t.machine m).claimed = false → (s.machine m).claimed = true →
        (t.machine m).control = .free ∧ (t.machine m).leader = .noLeader) →
      (((ms.foldl releaseMachine t).machine m).claimed = false → (s.machine m).claimed = true →
        ((ms.foldl releaseMachine t).machine m).control = .free
          ∧ ((ms.foldl releaseMachine t).machine m).leader = .noLeader) := by
    intro ms
    induction ms with
    | nil => exact fun _ h => h
    | cons n ms ih =>
      refine fun t h => ih _ ?_
      by_cases hn : n = m
      · subst hn
        by_cases claimed : (t.machine n).claimed = true
        · exact fun _ _ => (turn t).2 claimed
        · rw [releaseMachine_unclaimed (by simpa using claimed)]
          exact h
      · rw [(releaseMachine_others t n m (Ne.symm hn)).2]
        exact h
  have unclaimed : ((ms.foldl releaseMachine s).machine m).claimed = false :=
    foldl_establishes (A := fun _ => True) (Q := fun t => (t.machine m).claimed = false) (a := m) (fun _ _ _ => trivial)
      (fun t n _ h => by
        by_cases hn : n = m
        · rw [hn]; exact (turn t).1
        · rw [(releaseMachine_others t n m (Ne.symm hn)).2]; exact h)
      (fun t _ => (turn t).1) hm trivial
  exact ⟨unclaimed, fun claimed => free_of_unclaimed ms s (fun h => by rw [claimed] at h; cases h) unclaimed claimed⟩

/-! ### The queue under releases (R84) -/

/-- A motion request placed leaves two requests at the head that are no motion. -/
theorem motionQueue_two {q : List QueuedRequest} {a b : QueuedRequest} (ha : a.request.isMotion = false)
    (hb : b.request.isMotion = false) (h : q.take 2 = [a, b]) (r : DeckRequest) : (motionQueue q r).take 2 = [a, b] := by
  match q, h with
  | x :: y :: z, h =>
    simp only [List.take_succ_cons, List.take_zero, List.cons.injEq, and_true] at h
    obtain ⟨rfl, rfl⟩ := h
    unfold motionQueue
    split
    · simp [replaceMotion, ha, hb]
    · simp

/-- A release leaves every queue, or places STOP. -/
theorem releaseMachine_queue (s : State) (m n : MachineId) :
    ((releaseMachine s m).port n).queue = (s.port n).queue
      ∨ ((releaseMachine s m).port n).queue = motionQueue (s.port n).queue .stop := by
  by_cases hn : n = m
  · subst hn
    unfold releaseMachine
    split
    · rw [changeMachine_port]
      by_cases takes : TakesMotion s n
      · exact .inr ((tryMotion_port s n .stop 0).1 takes).1
      · exact .inl (congrArg Port.queue ((tryMotion_port s n .stop 0).2 takes).1)
    · exact .inl rfl
  · rw [(releaseMachine_others s m n hn).1]
    exact .inl rfl

theorem releases_queue_two {a b : QueuedRequest} (ha : a.request.isMotion = false) (hb : b.request.isMotion = false)
    (ms : List MachineId) {s : State} {n : MachineId} (h : (s.port n).queue.take 2 = [a, b]) :
    ((ms.foldl releaseMachine s).port n).queue.take 2 = [a, b] := by
  induction ms generalizing s with
  | nil => exact h
  | cons m ms ih =>
    refine ih ?_
    rcases releaseMachine_queue s m n with kept | placed
    · rw [kept]; exact h
    · rw [placed]; exact motionQueue_two ha hb h _

/-! ### The event restored (R31) -/

theorem changeEventState_found {s : State} {h : Nat} {e : Event} {f : Event → Event} (hf : ∀ e, (f e).handle = e.handle)
    (found : findEvent s h = some e) : findEvent (changeEventState s h f) h = some (f e) := by
  have updated : findEvent (updateEvent s h f) h = some (f e) := by rw [findEvent_updateEvent s h f hf, found]; rfl
  unfold changeEventState
  rw [updated]
  exact updated

/-- What a hold makes of the event it leaves. -/
def Event.heldFrom (r : RunRecord) (e : Event) : Event := if r.recordingStarted then e.leftIncomplete else e.restored r.prior

theorem Event.heldFrom_key (r : RunRecord) (e : Event) :
    (e.heldFrom r).handle = e.handle ∧ (e.heldFrom r).insertion = e.insertion ∧ (e.heldFrom r).record = e.record := by
  unfold Event.heldFrom
  split
  · exact e.leftIncomplete_key
  · exact e.restored_key _

theorem restoreEvent_some {s : State} {h : Nat} (current : s.run.current = some h) :
    restoreEvent s = changeEventState s h (Event.heldFrom s.run) := by
  unfold restoreEvent
  rw [current]
  rfl

theorem restoreEvent_frame (s : State) :
    restoreEvent s = { s with store := (restoreEvent s).store, console := (restoreEvent s).console }
      ∧ OnlyNotices s (restoreEvent s) ∧ listOf (restoreEvent s) = listOf s
      ∧ ∀ h e, s.run.current = some h → findEvent s h = some e → findEvent (restoreEvent s) h = some (e.heldFrom s.run) := by
  cases current : s.run.current with
  | none =>
    have still : restoreEvent s = s := by unfold restoreEvent; rw [current]
    rw [still]
    exact ⟨rfl, .refl s, rfl, fun h e k => by cases k⟩
  | some h =>
    have key := Event.heldFrom_key s.run
    obtain ⟨frame, link⟩ := changeEventState_frame s h (Event.heldFrom s.run)
    rw [restoreEvent_some current]
    refine ⟨frame, link, (changeEventState_listOf s h _ key).1, fun h' e k found => ?_⟩
    cases k
    exact changeEventState_found (fun e => (key e).1) found

/-! ### A hold (R134) -/

/-- The machines' part of a hold: EDIT OFF, and the releases. -/
def holdReleased (s : State) : State := releaseAll (holdEditOff s)

theorem holdReleased_frame (s : State) : MachinesOnly (editSetCleared s) (holdReleased s) :=
  (holdEditOff_frame s).1.trans (releaseAll_machinesOnly _)

theorem releaseAll_held (s : State) : RecordsHeld s (releaseAll s) := .foldl releaseMachine_held _ s

theorem holdReleased_held (s : State) : RecordsHeld s (holdReleased s) := (holdEditOff_frame s).2.1.trans (releaseAll_held _)

theorem runMachines_cleared {s t : State} (h : MachinesOnly (editSetCleared s) t) : runMachines t = runMachines s := by
  unfold runMachines eventMachines
  rw [h.run, h.recorder]
  rfl

theorem holdReleased_released (s : State) {m : MachineId} (hm : m ∈ runMachines s) :
    ((holdReleased s).machine m).claimed = false
      ∧ ((s.machine m).claimed = true →
          ((holdReleased s).machine m).control = .free ∧ ((holdReleased s).machine m).leader = .noLeader) := by
  obtain ⟨only, -, claims⟩ := holdEditOff_frame s
  rw [← runMachines_cleared only] at hm
  have released := releases_released _ (holdEditOff s) hm
  rw [claims] at released
  exact released

/-- The state in which a hold's last step is made. -/
def holdCleared (s : State) : State :=
  (restoreEvent (discardCues (stopClock (holdReleased s)))).updateRun (fun r => { r.eventCleared with holdPending := none })

theorem holdRun_active {s : State} (active : s.run.phase.active = true) (cause : HoldCause) (m : Option MachineId) :
    holdRun s cause m = becomeHeld (holdCleared s) cause m (some s.run.phase) := if_pos active

/-- The run record, the clock, the cues and the machines in the state in which a hold's last step is made. -/
theorem holdCleared_frame (s : State) :
    holdCleared s = { s with
      timeline := { s.timeline with clock := none }, store := (holdCleared s).store, ports := (holdReleased s).ports
      machines := (holdReleased s).machines
      run := { s.run.eventCleared with editSet := TrackSet.none, holdPending := none }
      cues := { s.cues with lines := s.cues.lines.map CueLine.discarded, cueSet := none }
      console := (holdCleared s).console } := by
  have restored := (restoreEvent_frame (discardCues (stopClock (holdReleased s)))).1
  have only := (holdReleased_frame s).1
  unfold holdCleared
  rw [restored, State.updateRun, discardCues, stopClock_spec, State.updateCues, only]
  rfl

/-- What a hold in an active phase leaves. -/
theorem holdRun_frame {s : State} (active : s.run.phase.active = true) (cause : HoldCause) (m : Option MachineId) :
    holdRun s cause m = { s with
      timeline := { s.timeline with clock := none }, store := (holdRun s cause m).store, ports := (holdReleased s).ports
      machines := (holdReleased s).machines
      run := { s.run.eventCleared with
        phase := .held, holdCause := some cause, editSet := TrackSet.none, holdPending := none }
      cues := { s.cues with lines := s.cues.lines.map CueLine.discarded, cueSet := none }
      console := (holdRun s cause m).console } := by
  rw [holdRun_active active, becomeHeld_spec, holdCleared_frame]
  rfl

theorem holdRun_noticed {s : State} (active : s.run.phase.active = true) (cause : HoldCause) (m : Option MachineId) :
    Noticed (holdRun s cause m) (.runHeld cause m s.run.current (some s.run.phase) s.run.eventsDone) := by
  have noticed := becomeHeld_noticed (holdCleared s) cause m (some s.run.phase)
  rw [← holdRun_active active, holdCleared_frame] at noticed
  exact noticed

theorem holdRun_found {s : State} (active : s.run.phase.active = true) (cause : HoldCause) (m : Option MachineId) {h : Nat}
    {e : Event} (current : s.run.current = some h) (found : findEvent s h = some e) :
    findEvent (holdRun s cause m) h = some (if s.run.recordingStarted then e.leftIncomplete else e.restored s.run.prior) := by
  have only := holdReleased_frame s
  have run : (discardCues (stopClock (holdReleased s))).run = { s.run with editSet := TrackSet.none } := only.run
  have restored := (restoreEvent_frame (discardCues (stopClock (holdReleased s)))).2.2.2 h e
  have found' : findEvent (discardCues (stopClock (holdReleased s))) h = some e := by
    rw [← found]
    unfold findEvent
    rw [show (discardCues (stopClock (holdReleased s))).store = s.store from only.store]
  rw [run] at restored
  rw [holdRun_active active]
  exact restored current found'

/-- A hold in an active phase has the effects of R134, whatever its cause. -/
theorem holdRun_taken {s : State} (active : s.run.phase.active = true) (cause : HoldCause) (m : Option MachineId) :
    HoldTaken s (holdRun s cause m) cause := by
  have frame := holdRun_frame active cause m
  have list : listOf (holdRun s cause m) = listOf s := (holdRun_step s cause m).list
  have found : ∀ h e, s.run.current = some h → findEvent s h = some e → findEvent (holdRun s cause m) h
      = some (if s.run.recordingStarted then e.leftIncomplete else e.restored s.run.prior) :=
    fun h e => holdRun_found active cause m
  have machine (n : MachineId) : (holdRun s cause m).machine n = (holdReleased s).machine n := by
    rw [frame]
    rfl
  refine ⟨?_, ?_, fun n hn => ?_, ?_, fun g => ?_, ?_, ?_, found, list, ?_, ?_, ?_⟩
  · rw [frame]
    exact ⟨rfl, rfl, rfl, rfl, rfl, rfl, rfl, rfl⟩
  · rw [frame]
    exact ⟨rfl, rfl, rfl, rfl, rfl⟩
  · rw [machine]
    exact holdReleased_released s hn
  · rw [frame]
  · rw [frame]
    exact Bank.get_map ..
  all_goals rw [frame]

/-- A hold in an active phase leaves records as the end of motion does. -/
theorem holdRun_held (s : State) (cause : HoldCause) (m : Option MachineId) : RecordsHeld s (holdRun s cause m) := by
  by_cases active : s.run.phase.active = true
  · refine (holdReleased_held s).trans (.of_machines ?_)
    rw [holdRun_frame active]
  · rw [holdRun_atRest (by simpa using active)]
    exact .refl s

theorem holdRun_queue_two {s : State} (active : s.run.phase.active = true) (cause : HoldCause) (m : Option MachineId)
    {rec : MachineId} {e : QueuedRequest} {rest : List QueuedRequest} (recorder : s.recorder = some rec)
    (online : s.link rec = .online) (tracks : s.run.editSet.isEmpty = false) (queue : (s.port rec).queue = e :: rest)
    (onLine : (s.port rec).headOnLine = true) (room : rest.length < 3) (still : e.request.isMotion = false) :
    ((holdRun s cause m).port rec).queue.take 2 = [e, ⟨.editOff s.run.editSet, s.run.current⟩] := by
  have port : (holdRun s cause m).port rec = (holdReleased s).port rec := by
    rw [holdRun_frame active]
    rfl
  rw [port]
  refine releases_queue_two still rfl _ ?_
  rw [holdEditOff_queue recorder online tracks queue onLine room]
  rfl

/-! ### HOLD and ABORT (R136, R137) -/

theorem answerHold_active {s : State} (active : s.run.phase.active = true) :
    answerHold s = ⟨s.updateRun (fun r => { r with holdPending := askHold r.holdPending }), .ok, []⟩ := by
  unfold answerHold
  cases phase : s.run.phase with
  | idle | held => rw [phase] at active; cases active
  | cueing | rolling | editing | postroll => rfl

theorem answerAbort_eq (s : State) :
    answerAbort s = if s.run.phase = .idle then refuseWith s .notActive else ⟨holdRun s .operatorAbort none, .ok, []⟩ := by
  unfold answerAbort
  simp only [runIdle_iff]

/-- Settles O47: the outcomes of HOLD and ABORT by phase; the effects of a hold are `holdRun_taken`. -/
theorem holdAndAbortStopRun : Obligations.HoldAndAbortStopRun := by
  refine ⟨fun s q rest => ⟨fun head => ?hold, fun head => ?abort⟩, fun s cause m => ⟨fun rest => holdRun_atRest rest cause m,
    fun active => ⟨holdRun_taken active cause m, holdRun_noticed active cause m,
      fun rec e rest recorder online tracks queue onLine room still =>
        holdRun_queue_two active cause m recorder online tracks queue onLine room still⟩⟩⟩
  case hold =>
    have served := exec_served (c := .hold) head rfl rfl
    refine ⟨fun idle => refuses_of served ?_, fun held => served.trans ?_, fun active => ?_⟩
    · rw [answerHold, dequeued_run, idle]
    · rw [answerHold, dequeued_run, held]
      rfl
    rw [answerHold_active (s := dequeued s rest) active] at served
    refine ⟨fun x pending deferred => served.trans ?_, fun asked => served.trans ?_⟩
    · have kept : askHold s.run.holdPending = s.run.holdPending := by rw [pending, askHold, if_neg deferred]
      rw [State.updateRun, dequeued_run, kept]
      rfl
    · have asked' : askHold s.run.holdPending = some ⟨.holdRequest, none⟩ := by
        rcases asked with none | ⟨x, pending, request⟩
        · rw [none]; rfl
        · rw [pending, askHold, if_pos request]
      rw [State.updateRun, dequeued_run, asked']
      rfl
  case abort =>
    have served := exec_served (c := .abort) head rfl rfl
    rw [answerAbort_eq, dequeued_run] at served
    refine ⟨fun idle => refuses_of served (if_pos idle), fun held => served.trans ?_, fun active => ?_⟩
    · rw [if_neg (by rw [held]; decide), holdRun_atRest (s := dequeued s rest) (by rw [dequeued_run, held]; rfl)]
      rfl
    · have phase : s.run.phase ≠ .idle := fun idle => by rw [idle] at active; cases active
      rw [if_neg phase] at served
      refine ⟨_, served, link_replied (holdRun_step _ _ _).link .ok [], ?_, ?_⟩
      · exact holdRun_taken (s := dequeued s rest) active .operatorAbort none
      · exact holdRun_noticed (s := dequeued s rest) active .operatorAbort none

end Sys2Proof.Machine
end

section
/-! SUPPORT and the statement of the STOP input (R116, R135, R161, R162, R175, R176): what each report of an assertion makes of
the machines, the run and the effects, in whichever order the reports come. -/

namespace Sys2Proof.Machine

/-! ### One machine under an asserted STOP input (R116) -/

/-- The record of a machine that the STOP input has stopped. -/
def MachineRec.stopped (x : MachineRec) : MachineRec :=
  { x.countsCleared with leader := .noLeader, terms := none, control := .free, locate := none }

/-- STOP is placed and the record changed; a locate that ends is then reported. -/
theorem allStopMachine_eq (s : State) (m : MachineId) :
    ((allStopMachine s m).1 = changeMachine (tryStop s m) m MachineRec.stopped ∧ (allStopMachine s m).2 = [])
      ∨ ∃ l target, allStopMachine s m
          = reportLocateFailure (changeMachine (tryStop s m) m MachineRec.stopped) m l target .allStop := by
  unfold allStopMachine
  split
  · exact .inr ⟨_, _, rfl⟩
  · exact .inl ⟨rfl, rfl⟩

theorem reportLocateFailure_port (s : State) (m n : MachineId) (l : Locate) (target : Label) (reason : LocateReason) :
    (reportLocateFailure s m l target reason).1.port n = s.port n := by
  unfold reportLocateFailure
  split <;> rfl

/-- Ports and records after one machine was stopped. -/
theorem allStopMachine_unit (s : State) (m n : MachineId) :
    (allStopMachine s m).1.port n = (tryStop s m).port n
      ∧ (allStopMachine s m).1.machine n = (changeMachine (tryStop s m) m MachineRec.stopped).machine n := by
  rcases allStopMachine_eq s m with ⟨done, -⟩ | ⟨l, target, done⟩
  · rw [done, changeMachine_port]
    exact ⟨rfl, rfl⟩
  · rw [done, reportLocateFailure_port, reportLocateFailure_machine, changeMachine_port]
    exact ⟨rfl, rfl⟩

theorem allStopMachine_others (s : State) (m : MachineId) : OthersKept s (allStopMachine s m).1 m := by
  intro n hn
  obtain ⟨port, machine⟩ := allStopMachine_unit s m n
  obtain ⟨port', machine'⟩ := tryMotion_others s m .stop 0 n hn
  exact ⟨port.trans port', machine.trans ((changeMachine_machine_other _ _ hn).trans machine')⟩

theorem allStopMachine_held (s : State) (m : MachineId) : RecordsHeld s (allStopMachine s m).1 := by
  have stopped : RecordsHeld s (changeMachine (tryStop s m) m MachineRec.stopped) :=
    (tryMotion_held s m .stop 0).trans (changeMachine_held ⟨rfl, rfl, rfl, rfl, rfl, .inr rfl, .inr rfl, .inl rfl⟩)
  intro n
  rw [(allStopMachine_unit s m n).2]
  exact stopped n

/-! ### Every machine under an asserted STOP input -/

/-- The turn of one machine in the Machine Controller's work. -/
def allStopTurn (x : State × List RunReport) (m : MachineId) : State × List RunReport :=
  if (x.1.machine m).configured then ((allStopMachine x.1 m).1, x.2 ++ (allStopMachine x.1 m).2) else x

theorem allStop_eq (s : State) : allStop s = Unit8.all.foldl allStopTurn (s, []) := rfl

theorem allStopTurn_others (x : State × List RunReport) (m : MachineId) : OthersKept x.1 (allStopTurn x m).1 m := by
  unfold allStopTurn
  split
  · exact allStopMachine_others x.1 m
  · exact fun n _ => ⟨rfl, rfl⟩

theorem allStopTurn_configured {x : State × List RunReport} {m : MachineId} (h : (x.1.machine m).configured = true) :
    (allStopTurn x m).1 = (allStopMachine x.1 m).1 := by
  unfold allStopTurn
  rw [if_pos h]

/-- A configured machine's part of the work: STOP, passed over if the port refuses it, and the record. -/
theorem allStop_unit {s : State} {m : MachineId} (configured : (s.machine m).configured = true) :
    ((allStop s).1.port m = (tryStop s m).port m)
      ∧ (allStop s).1.machine m = ((tryStop s m).machine m).stopped := by
  rw [allStop_eq]
  refine foldl_at (P := fun x : State × List RunReport => x.1.port m = s.port m ∧ x.1.machine m = s.machine m)
    (Q := fun x : State × List RunReport => x.1.port m = (tryStop s m).port m ∧ x.1.machine m = ((tryStop s m).machine m).stopped)
    (a := m) (fun x n hn h => ?_) (fun x h => ?_) (fun x n hn h => ?_) Unit8.all_nodup (Unit8.mem_all m) ⟨rfl, rfl⟩
  · obtain ⟨port, machine⟩ := allStopTurn_others x n m (Ne.symm hn)
    exact ⟨port.trans h.1, machine.trans h.2⟩
  · obtain ⟨port, machine⟩ := allStopMachine_unit x.1 m m
    have placed : (tryStop x.1 m).port m = (tryStop s m).port m ∧ (tryStop x.1 m).machine m = (tryStop s m).machine m := by
      unfold tryStop tryMotion placeMotion
      rw [h.1]
      cases (s.port m).placeMotion .stop with
      | ok p => simp [updateMachine, h.2]
      | error e => exact h
    rw [allStopTurn_configured (by rw [h.2]; exact configured), port, machine, changeMachine_machine]
    exact ⟨placed.1, by rw [placed.2]⟩
  · obtain ⟨port, machine⟩ := allStopTurn_others x n m (Ne.symm hn)
    exact ⟨port.trans h.1, machine.trans h.2⟩

theorem allStop_held (s : State) : RecordsHeld s (allStop s).1 := by
  have turns (l : List MachineId) : ∀ x : State × List RunReport, RecordsHeld x.1 (l.foldl allStopTurn x).1 := by
    refine fun x => foldl_rel (R := fun x y : State × List RunReport => RecordsHeld x.1 y.1) (fun x => .refl x.1)
      (fun _ _ _ h k => h.trans k) (fun x m => ?_) l x
    unfold allStopTurn
    split
    · exact allStopMachine_held x.1 m
    · exact .refl x.1
  exact turns Unit8.all (s, [])

/-- Every report of the work is of a run locate that the STOP input has ended. -/
theorem allStop_reports (s : State) : ∀ r ∈ (allStop s).2, ∃ m, r = .locateFailed m .allStop := by
  have turns (l : List MachineId) : ∀ x : State × List RunReport, (∀ r ∈ x.2, ∃ m, r = RunReport.locateFailed m .allStop) →
      ∀ r ∈ (l.foldl allStopTurn x).2, ∃ m, r = .locateFailed m .allStop := by
    induction l with
    | nil => exact fun _ h => h
    | cons m l ih =>
      refine fun x h => ih _ ?_
      unfold allStopTurn
      split
      · intro r hr
        rcases List.mem_append.1 hr with old | new
        · exact h r old
        · rcases allStopMachine_eq x.1 m with ⟨-, done⟩ | ⟨l, target, done⟩
          · rw [done] at new
            cases new
          · rw [done] at new
            unfold reportLocateFailure at new
            split at new
            · cases new
            · exact ⟨m, List.mem_singleton.1 new⟩
      · exact h
  exact turns Unit8.all (s, []) (fun r h => by cases h)

theorem allStop_machinesOnly (s : State) : MachinesOnly s (allStop s).1 := (allStop_step s).only

/-! ### Reports to the Run Controller -/

theorem takeReport_held (s : State) (r : RunReport) : RecordsHeld s (takeReport s r) := by
  rcases takeReport_cases s r with same | ⟨c, m, held⟩ | ⟨c, m, deferred⟩
  · rw [same]; exact .refl s
  · rw [held]; exact holdRun_held s c m
  · rw [deferred]; exact .of_machines rfl

theorem deliver_held (x : State × List RunReport) : RecordsHeld x.1 (deliver x) := .foldl takeReport_held _ _

/-- A run that the STOP input has stopped. -/
def StoppedRun (s : State) : Prop := s.run.phase = .held ∧ s.run.holdCause = some .allStop ∧ s.timeline.clock = none

theorem holdRun_allStop {s : State} (active : s.run.phase.active = true) : StoppedRun (holdRun s .allStop none) := by
  rw [StoppedRun, holdRun_frame active]
  exact ⟨rfl, rfl, rfl⟩

theorem StoppedRun.inactive {s : State} (h : StoppedRun s) : s.run.phase.active = false := by rw [h.1]; rfl

/-- The report of a run locate ended by STOP holds the run in CUEING, with no other cause, and does nothing else. -/
theorem takeReport_allStop (s : State) (m : MachineId) :
    takeReport s (.locateFailed m .allStop) = s
      ∨ takeReport s (.locateFailed m .allStop) = holdRun s .allStop none := by
  unfold takeReport reportEffect
  cases s.run.phase with
  | cueing => exact .inr rfl
  | idle | rolling | editing | postroll | held => exact .inl rfl

/-- Reports of locates ended by STOP leave an active run active or stop it, and leave a stopped one. -/
theorem deliver_allStop {s : State} {rs : List RunReport} (all : ∀ r ∈ rs, ∃ m, r = .locateFailed m .allStop) :
    (s.run.phase.active = true ∨ StoppedRun s) →
      (deliver (s, rs)).run.phase.active = true ∨ StoppedRun (deliver (s, rs)) := by
  unfold deliver
  dsimp only
  induction rs generalizing s with
  | nil => exact id
  | cons r rs ih =>
    obtain ⟨⟨m, rfl⟩, later⟩ := List.forall_mem_cons.1 all
    refine fun run => ih later ?_
    rcases takeReport_allStop s m with same | held
    · rw [same]; exact run
    · rw [held]
      rcases run with active | stopped
      · exact .inr (holdRun_allStop active)
      · rw [holdRun_atRest stopped.inactive]
        exact .inr stopped

/-! ### What a report keeps of the effects and the cues -/

/-- The effects stand, and the cues stand or are discarded. -/
structure OutputsHeld (s t : State) : Prop where
  effects : t.effects = s.effects
  cues : t.cues = s.cues ∨ t.cues = (discardCues s).cues

theorem OutputsHeld.refl (s : State) : OutputsHeld s s := ⟨rfl, .inl rfl⟩

theorem CueLine.discarded_discarded (l : CueLine) : l.discarded.discarded = l.discarded := rfl

theorem discardCues_twice (s : State) : (discardCues (discardCues s)).cues = (discardCues s).cues := by
  have lines : (s.cues.lines.map CueLine.discarded).map CueLine.discarded = s.cues.lines.map CueLine.discarded := by
    refine Bank.ext_get fun g => ?_
    rw [Bank.get_map, Bank.get_map, CueLine.discarded_discarded]
  show ({ s.cues with lines := (s.cues.lines.map CueLine.discarded).map CueLine.discarded, cueSet := none } : CueUnit) = _
  rw [lines]
  rfl

theorem OutputsHeld.trans {s t u : State} (h : OutputsHeld s t) (k : OutputsHeld t u) : OutputsHeld s u := by
  have discarded : (discardCues t).cues = (discardCues s).cues := by
    show ({ t.cues with lines := t.cues.lines.map CueLine.discarded, cueSet := none } : CueUnit) = _
    rcases h.cues with cues | cues
    · rw [cues]; rfl
    · rw [cues]; exact discardCues_twice s
  refine ⟨k.effects.trans h.effects, ?_⟩
  rcases k.cues with cues | cues
  · rw [cues]; exact h.cues
  · exact .inr (cues.trans discarded)

theorem holdRun_outputs (s : State) (cause : HoldCause) (m : Option MachineId) : OutputsHeld s (holdRun s cause m) := by
  by_cases active : s.run.phase.active = true
  · rw [holdRun_frame active]
    exact ⟨rfl, .inr rfl⟩
  · rw [holdRun_atRest (by simpa using active)]
    exact .refl s

theorem takeReport_outputs (s : State) (r : RunReport) : OutputsHeld s (takeReport s r) := by
  rcases takeReport_cases s r with same | ⟨c, m, held⟩ | ⟨c, m, deferred⟩
  · rw [same]; exact .refl s
  · rw [held]; exact holdRun_outputs s c m
  · rw [deferred]; exact ⟨rfl, .inl rfl⟩

theorem deliver_outputs (x : State × List RunReport) : OutputsHeld x.1 (deliver x) :=
  foldl_rel .refl (fun _ _ _ => .trans) takeReport_outputs x.2 x.1

/-! ### The three reports of an assertion -/

theorem stopReported_held (s : State) (r : StopReport) : RecordsHeld s (stopReported s r) := by
  cases r with
  | machineController => exact (allStop_held s).trans (deliver_held _)
  | runController => exact holdRun_held s _ _
  | effectsGenerator => exact .of_machines rfl

/-- While no run is active the Machine Controller's report changes ports, machines and notices alone, the others' the run not
at all. -/
theorem stopReported_atRest {s : State} (rest : s.run.phase.active = false) :
    stopReported s .machineController = (allStop s).1 ∧ stopReported s .runController = s := by
  refine ⟨?_, holdRun_atRest rest _ _⟩
  exact deliver_atRest (s := (allStop s).1) (by rw [(allStop_machinesOnly s).run]; exact rest) _

theorem stopReported_run {s : State} (r : StopReport) (run : s.run.phase.active = true ∨ StoppedRun s) :
    (stopReported s r).run.phase.active = true ∨ StoppedRun (stopReported s r) := by
  cases r with
  | machineController =>
    have only := allStop_machinesOnly s
    refine deliver_allStop (s := (allStop s).1) (allStop_reports s) ?_
    rw [StoppedRun, only.run, only.timeline]
    exact run
  | runController =>
    rcases run with active | stopped
    · exact .inr (holdRun_allStop active)
    · exact .inr (by rw [stopReported, holdRun_atRest stopped.inactive]; exact stopped)
  | effectsGenerator => exact run

/-- A run that is stopped stays so. -/
theorem stopReported_stopped {s : State} (r : StopReport) (stopped : StoppedRun s) : StoppedRun (stopReported s r) := by
  cases r with
  | machineController =>
    have only := allStop_machinesOnly s
    rw [(stopReported_atRest stopped.inactive).1, StoppedRun, only.run, only.timeline]
    exact stopped
  | runController =>
    rw [(stopReported_atRest stopped.inactive).2]
    exact stopped
  | effectsGenerator => exact stopped

/-- The report to the Effects Generator sets the freeze flag; the others leave the effects. -/
theorem stopReported_effects (s : State) (r : StopReport) :
    (stopReported s r).effects = s.effects ∨ (stopReported s r).effects = { s.effects with freeze := true } := by
  cases r with
  | machineController =>
    exact .inl ((deliver_outputs (allStop s)).effects.trans (allStop_machinesOnly s).effects)
  | runController => exact .inl (holdRun_outputs s _ _).effects
  | effectsGenerator => exact .inr rfl

theorem stopReported_cues (s : State) (r : StopReport) :
    (stopReported s r).cues = s.cues ∨ (stopReported s r).cues = (discardCues s).cues := by
  cases r with
  | machineController =>
    have only := allStop_machinesOnly s
    rcases (deliver_outputs (allStop s)).cues with cues | cues
    · exact .inl (cues.trans only.cues)
    · refine .inr (cues.trans ?_)
      show ({ (allStop s).1.cues with lines := (allStop s).1.cues.lines.map CueLine.discarded, cueSet := none } : CueUnit) = _
      rw [only.cues]
      rfl
  | runController => exact (holdRun_outputs s _ _).cues
  | effectsGenerator => exact .inl rfl

/-! ### The reports in any order -/

/-- What every report keeps holds after all of them. -/
theorem stopReports_keep {P : State → Prop} (turn : ∀ t r, P t → P (stopReported t r)) (order : List StopReport) {s : State}
    (hs : P s) : P ((stopOrder order).foldl stopReported s) :=
  List.foldlRecOn (motive := P) (stopOrder order) stopReported hs fun t ht r _ => turn t r ht

theorem stopReports_effects (order : List StopReport) (s : State) :
    ((stopOrder order).foldl stopReported s).effects = { s.effects with freeze := true } := by
  refine foldl_establishes (A := fun t : State => ({ t.effects with freeze := true } : EffectsGenerator) = { s.effects with freeze := true })
    (Q := fun t => t.effects = { s.effects with freeze := true }) (a := .effectsGenerator) (fun t r h => ?_) (fun t r _ h => ?_)
    (fun t h => h) (mem_stopOrder order _) rfl
  · rcases stopReported_effects t r with same | frozen
    · rw [same]; exact h
    · rw [frozen]; exact h
  · rcases stopReported_effects t r with same | frozen
    · rw [same]; exact h
    · rw [frozen, h]

theorem stopReports_stopped (order : List StopReport) {s : State} (active : s.run.phase.active = true) :
    StoppedRun ((stopOrder order).foldl stopReported s) := by
  refine foldl_establishes (A := fun t => t.run.phase.active = true ∨ StoppedRun t) (Q := StoppedRun) (a := .runController)
    (fun t r h => stopReported_run r h) (fun t r _ h => stopReported_stopped r h) (fun t h => ?_) (mem_stopOrder order _) (.inl active)
  rcases h with active | stopped
  · exact holdRun_allStop active
  · exact stopReported_stopped .runController stopped

/-- Without an active run the reports leave the run, the clock and the store. -/
theorem stopReports_atRest (order : List StopReport) {s : State} (rest : s.run.phase.active = false) :
    ((stopOrder order).foldl stopReported s).run = s.run ∧ ((stopOrder order).foldl stopReported s).timeline = s.timeline
      ∧ ((stopOrder order).foldl stopReported s).store = s.store := by
  refine stopReports_keep (P := fun t => t.run = s.run ∧ t.timeline = s.timeline ∧ t.store = s.store) (fun t r h => ?_) order
    ⟨rfl, rfl, rfl⟩
  obtain ⟨run, timeline, store⟩ := h
  have rest' : t.run.phase.active = false := by rw [run]; exact rest
  cases r with
  | machineController =>
    have only := allStop_machinesOnly t
    rw [(stopReported_atRest rest').1]
    exact ⟨only.run.trans run, only.timeline.trans timeline, only.store.trans store⟩
  | runController =>
    rw [(stopReported_atRest rest').2]
    exact ⟨run, timeline, store⟩
  | effectsGenerator => exact ⟨run, timeline, store⟩

theorem replaceMotion_again {r : DeckRequest} (hr : r.isMotion = true) (q : List QueuedRequest) :
    replaceMotion ⟨r, none⟩ (replaceMotion ⟨r, none⟩ q) = replaceMotion ⟨r, none⟩ q := by
  induction q with
  | nil => rfl
  | cons x q ih =>
    by_cases motion : x.request.isMotion = true
    · simp [replaceMotion, motion, hr]
    · simp [replaceMotion, motion, ih]

/-- Once a motion request has been placed, one is queued. -/
theorem motionQueue_motion {r : DeckRequest} (hr : r.isMotion = true) (q : List QueuedRequest) :
    (motionQueue q r).any (fun x => x.request.isMotion) = true := by
  have replaced : ∀ q : List QueuedRequest, q.any (fun x => x.request.isMotion) = true →
      (replaceMotion ⟨r, none⟩ q).any (fun x => x.request.isMotion) = true := by
    intro q
    induction q with
    | nil => exact fun h => h
    | cons x q ih =>
      intro h
      by_cases motion : x.request.isMotion = true
      · simp [replaceMotion, motion, hr]
      · rw [List.any_cons, Bool.or_eq_true] at h
        rw [replaceMotion, if_neg motion, List.any_cons, ih (h.resolve_left motion), Bool.or_true]
  unfold motionQueue
  split
  · rename_i queued
    exact replaced q queued
  · rw [List.any_append]
    simp [hr]

/-- To place the same motion request again changes no queue. -/
theorem motionQueue_again {r : DeckRequest} (hr : r.isMotion = true) (q : List QueuedRequest) :
    motionQueue (motionQueue q r) r = motionQueue q r := by
  have again : motionQueue (motionQueue q r) r = replaceMotion ⟨r, none⟩ (motionQueue q r) :=
    if_pos (motionQueue_motion hr q)
  rw [again]
  unfold motionQueue
  split
  · exact replaceMotion_again hr q
  · rename_i queued
    have first : ∀ y ∈ q, y.request.isMotion = false := by simpa [List.any_eq_true] using queued
    exact replaceMotion_at (z := []) (x := ⟨r, none⟩) _ hr first

/-- A machine that takes motion still takes it with STOP placed. -/
theorem tryStop_takes {s : State} {m : MachineId} (takes : TakesMotion s m) : TakesMotion (tryStop s m) m := by
  obtain ⟨p, hp, placed⟩ := tryMotion_taken takes .stop 0
  obtain ⟨online, queue, frame⟩ := Port.placeMotion_spec hp
  have port : (tryStop s m).port m = p := by rw [tryStop, placed]; simp
  refine ⟨?_, .inl ?_⟩
  · show ((tryStop s m).port m).link = .online
    rw [port, frame]
    exact online
  · rw [port, queue]
    exact motionQueue_motion rfl _

/-- STOP has been placed at a machine's port: its queue is the first state's with STOP placed. -/
def StopPlaced (s t : State) (m : MachineId) : Prop :=
  (t.port m).queue = motionQueue (s.port m).queue .stop ∧ (t.machine m).lastSpeed = some 0

/-- Without an active run STOP is placed at every port of a configured machine that takes it, however often it is reported. -/
theorem stopReports_placed (order : List StopReport) {s : State} {m : MachineId} (rest : s.run.phase.active = false)
    (configured : (s.machine m).configured = true) (takes : TakesMotion s m) :
    StopPlaced s ((stopOrder order).foldl stopReported s) m := by
  have controller {t : State} (ht : t.run.phase.active = false) (hc : (t.machine m).configured = true) :
      (stopReported t .machineController).port m = (tryStop t m).port m
        ∧ (stopReported t .machineController).machine m = ((tryStop t m).machine m).stopped := by
    rw [(stopReported_atRest ht).1]
    exact allStop_unit hc
  have queue {t : State} (ht : TakesMotion t m) (hq : motionQueue (t.port m).queue .stop = motionQueue (s.port m).queue .stop)
      (hr : t.run.phase.active = false) (hc : (t.machine m).configured = true) :
      StopPlaced s (stopReported t .machineController) m ∧ TakesMotion (stopReported t .machineController) m := by
    obtain ⟨port, record⟩ := controller hr hc
    obtain ⟨placed, speed⟩ := (tryMotion_port t m .stop 0).1 ht
    have after := tryStop_takes ht
    refine ⟨⟨?_, ?_⟩, ?_⟩
    · rw [port, ← hq]
      exact placed
    · rw [record]
      exact speed
    · unfold TakesMotion State.link at *
      rw [port]
      exact after
  refine foldl_establishes
    (A := fun t => t.run.phase.active = false ∧ (t.machine m).configured = true ∧ TakesMotion t m
      ∧ motionQueue (t.port m).queue .stop = motionQueue (s.port m).queue .stop)
    (Q := fun t => StopPlaced s t m) (a := .machineController) (fun t r h => ?_) (fun t r h placed => ?_)
    (fun t h => (queue h.2.2.1 h.2.2.2 h.1 h.2.1).1) (mem_stopOrder order _) ⟨rest, configured, takes, rfl⟩
  · obtain ⟨ht, hc, hm, hq⟩ := h
    have inactive : (stopReported t r).run.phase.active = false := by
      cases r with
      | machineController =>
        rw [(stopReported_atRest ht).1, (allStop_machinesOnly t).run]
        exact ht
      | runController => exact holdRun_inactive t _ _
      | effectsGenerator => exact ht
    refine ⟨inactive, ((stopReported_step t r).configured m).trans hc, ?_⟩
    cases r with
    | machineController =>
      obtain ⟨placed, takes'⟩ := queue hm hq ht hc
      exact ⟨takes', by rw [placed.1]; exact motionQueue_again rfl _⟩
    | runController =>
      rw [(stopReported_atRest ht).2]
      exact ⟨hm, hq⟩
    | effectsGenerator => exact ⟨hm, hq⟩
  · obtain ⟨ht, hc, hm, hq⟩ := h
    cases r with
    | machineController => exact (queue hm hq ht hc).1
    | runController =>
      rw [(stopReported_atRest ht).2]
      exact placed
    | effectsGenerator => exact placed

/-- The record of a machine at rest, with its lock counts 0. -/
def StoppedRecord (x : MachineRec) : Prop := x.rests ∧ x.inWindow = 0 ∧ x.outWindow = 0

/-- A configured machine after the reports. -/
theorem stopReports_machine (order : List StopReport) {s : State} {m : MachineId} (asserted : s.stopAsserted = true)
    (configured : (s.machine m).configured = true) :
    StoppedRecord (((stopOrder order).foldl stopReported s).machine m) := by
  refine foldl_establishes (A := fun t : State => t.stopAsserted = true ∧ (t.machine m).configured = true)
    (Q := fun t => StoppedRecord (t.machine m)) (a := .machineController)
    (fun t r h => ?_) (fun t r h q => ?_) (fun t h => ?_) (mem_stopOrder order _) ⟨asserted, configured⟩
  · exact ⟨(stopReported_step t r).stopAsserted.trans h.1, ((stopReported_step t r).configured m).trans h.2⟩
  · obtain ⟨rests, inWindow, outWindow⟩ := q
    have held := stopReported_held t r m
    exact ⟨((stopReported_step t r).rests h.1).2.1 m rests, held.inWindow.elim (·.trans inWindow) id,
      held.outWindow.elim (·.trans outWindow) id⟩
  · obtain ⟨ht, hc⟩ := h
    have record := (allStop_unit hc).2
    have stopped := (BlockStep.of_machines (allStop_step t)).stopAsserted.trans ht
    have held := deliver_held (allStop t) m
    refine ⟨((deliver_step (allStop t)).rests stopped).2.1 m (by rw [record]; exact ⟨rfl, rfl⟩), ?_, ?_⟩
    · exact held.inWindow.elim (·.trans (by rw [record]; rfl)) id
    · exact held.outWindow.elim (·.trans (by rw [record]; rfl)) id

/-- The lines at rest with their polarities, and no cue set. -/
def CuesStopped (s t : State) : Prop :=
  (∀ g, (t.cueLine g).atRest ∧ (t.cueLine g).polarity = (s.cueLine g).polarity) ∧ t.cues.cueSet = none

/-- Lines at rest, their polarities and the absent cue set stand under the reports. -/
theorem stopReports_cues (order : List StopReport) {s : State} (lines : ∀ g, (s.cueLine g).atRest) (empty : s.cues.cueSet = none) :
    CuesStopped s ((stopOrder order).foldl stopReported s) := by
  refine stopReports_keep (P := CuesStopped s) (fun t r h => ?_) order ⟨fun g => ⟨lines g, rfl⟩, empty⟩
  rcases stopReported_cues t r with cues | cues
  · unfold CuesStopped State.cueLine at *
    rw [cues]
    exact h
  · have line (g : CueLineId) : (stopReported t r).cueLine g = (t.cueLine g).discarded := by
      unfold State.cueLine
      rw [cues]
      exact discardCues_cueLine t g
    refine ⟨fun g => ?_, by rw [cues]; rfl⟩
    obtain ⟨⟨active, counter, -⟩, polarity⟩ := h.1 g
    rw [line]
    exact ⟨⟨active, counter, rfl, rfl, rfl⟩, polarity⟩

/-- The state in which the reports of an assertion reach the blocks differs in the cues, the notices and the wait alone. -/
theorem assertStop_frame (s : State) :
    assertStop (withoutCue s) = { s with
      cues := (assertStop (withoutCue s)).cues, console := (assertStop (withoutCue s)).console, waiting := s.waiting.erase .cue } :=
  rfl

theorem assertStop_polarity (s : State) (g : CueLineId) :
    ((assertStop (withoutCue s)).cueLine g).polarity = (s.cueLine g).polarity := by
  show ((discardCues (withoutCue s)).cues.lines.map CueLine.quiet |>.get g).polarity = _
  rw [Bank.get_map]
  show ((discardCues (withoutCue s)).cueLine g).polarity = _
  rw [discardCues_cueLine]
  rfl

/-- A line at rest makes nothing of a field start. -/
theorem CueLine.field_atRest {l : CueLine} (rest : l.atRest) (day : Nat) (position : Option Nat) : l.field day position = l := by
  obtain ⟨active, -, armed, -⟩ := rest
  rw [CueLine.field_none (.inr (.inl armed))]
  unfold CueLine.count
  rw [if_neg (by rw [active]; decide)]

theorem cueLinesField_atRest {s : State} (rest : ∀ g, (s.cueLine g).atRest) : cueLinesField s = s := by
  unfold cueLinesField
  split
  · rfl
  · have lines : s.cues.lines.map (CueLine.field (dayRec s) (currentPosition s)) = s.cues.lines := by
      refine Bank.ext_get fun g => ?_
      rw [Bank.get_map]
      exact CueLine.field_atRest (rest g) _ _
    unfold State.updateCues
    dsimp only
    rw [lines]

/-- Settles O52: the facts about the reports, each for any order, on the state in which the reports are made. -/
theorem stopInputStopsSuite : Obligations.StopInputStopsSuite := by
  refine ⟨fun s order waits released => ?assertion, fun s waits asserted rest => ?release⟩
  case assertion =>
    have exec : exec (.stopAssertion order) s
        = .next ((stopOrder order).foldl stopReported (assertStop (withoutCue s))) :=
      if_pos (by rw [cueWaits, waits, released]; rfl)
    have raised : Noticed (assertStop (withoutCue s)) (.allStop .asserted) := raiseNotice_noticed _ _
    have atRest := assertStop_lines (withoutCue s)
    have polarity := assertStop_polarity s
    have empty : (assertStop (withoutCue s)).cues.cueSet = none := rfl
    have asserted := assertStop_asserted (withoutCue s)
    have frame := assertStop_frame s
    generalize assertStop (withoutCue s) = u at *
    have machine (m : MachineId) : u.machine m = s.machine m := by rw [frame]; rfl
    have port (m : MachineId) : u.port m = s.port m := by rw [frame]; rfl
    have run : u.run = s.run := by rw [frame]
    have reports := BlockStep.foldl stopReported_step (stopOrder order) u
    obtain ⟨lines, cueSet⟩ := stopReports_cues order atRest empty
    have held := stopReports_keep (P := RecordsHeld u) (fun t r h => h.trans (stopReported_held t r)) order (.refl _)
    refine ⟨_, exec, reports.stopAsserted.trans asserted, ?_, fun g => ⟨(lines g).1, (lines g).2.trans (polarity g)⟩, cueSet,
      reports.notices.noticed _ rfl raised, fun m configured => ?_, fun active => ?_, fun inactive => ?_,
      reports.list.trans ?_, reports.recorder.trans ?_, reports.runParams.trans ?_⟩
    · rw [stopReports_effects, frame]
    · rw [← machine] at configured ⊢
      obtain ⟨⟨control, leader⟩, inWindow, outWindow⟩ := stopReports_machine order asserted configured
      exact ⟨control, leader, inWindow, outWindow, reports.params m, (held m).position, (held m).markIn, (held m).markOut⟩
    · rw [← run] at active
      exact stopReports_stopped order active
    · rw [← run] at inactive
      obtain ⟨run', timeline, store⟩ := stopReports_atRest order inactive
      refine ⟨run'.trans run, timeline.trans (by rw [frame]), store.trans (by rw [frame]), fun m configured takes => ?_⟩
      unfold TakesMotion State.link at takes
      rw [← machine] at configured
      rw [← port] at takes ⊢
      exact stopReports_placed order inactive configured takes
    all_goals rw [frame]
    rfl
  case release =>
    have exec : exec .stopRelease s
        = .next (cueLinesField (setFreeze (recogniseStop (withoutCue s) .released) false)) :=
      if_pos (by rw [cueWaits, waits, asserted]; rfl)
    have quiet : cueLinesField (setFreeze (recogniseStop (withoutCue s) .released) false)
        = setFreeze (recogniseStop (withoutCue s) .released) false := cueLinesField_atRest rest
    rw [quiet] at exec
    have link : OnlyNotices s (setFreeze (recogniseStop (withoutCue s) .released) false) :=
      ConsolePort.place_frame s.console (.allStop .released)
    exact ⟨_, exec, rfl, rfl, raiseNotice_noticed _ _, link, rfl⟩

end Sys2Proof.Machine
end

section
/-! Configuring a machine (R90, R95, R96): the order of the tests, and what each of the four requests leaves of the record, its
port and the follows. -/

namespace Sys2Proof.Machine

/-! ### Ports whose queues alone change -/

/-- Of every port the queue alone is changed, and the exchange when its request is superseded. -/
def QueuesOnly (s t : State) : Prop :=
  ∀ n, t.port n = { s.port n with queue := (t.port n).queue, exchange := (t.port n).exchange }

theorem QueuesOnly.refl (s : State) : QueuesOnly s s := fun _ => rfl

theorem QueuesOnly.of_ports {s t : State} (h : t.ports = s.ports) : QueuesOnly s t := fun n => by
  unfold State.port; rw [h]

theorem QueuesOnly.trans {s t u : State} (h : QueuesOnly s t) (k : QueuesOnly t u) : QueuesOnly s u := fun n => by
  rw [k n, h n]

theorem tryMotion_queuesOnly (s : State) (m : MachineId) (r : DeckRequest) (v : Int) : QueuesOnly s (tryMotion s m r v) := by
  intro n
  rcases tryMotion_cases s m r v with h | ⟨p, hp, h⟩ <;> rw [h]
  by_cases hn : n = m
  · subst hn
    obtain ⟨-, -, frame⟩ := Port.placeMotion_spec hp
    rwa [State.setMachine_port, State.setPort_port]
  · rw [State.setMachine_port, State.setPort_port_other s p hn]

theorem cancelFollow_queuesOnly (s : State) (m : MachineId) : QueuesOnly s (cancelFollow s m) := by
  unfold cancelFollow dropLeader
  exact (tryMotion_queuesOnly s m .stop 0).trans (.of_ports (changeMachine_ports _ m _))

/-- What one turn of a cancellation of follows makes: nothing, or the follow of one machine cancelled. -/
theorem cancelFollowsOf_induction {R : State → State → Prop} (refl : ∀ s, R s s) (trans : ∀ s t u, R s t → R t u → R s u)
    (turn : ∀ s f, R s (cancelFollow s f)) (s : State) (m : MachineId) : R s (cancelFollowsOf s m) := by
  refine foldl_rel refl trans (fun t f => ?_) Unit8.all s
  split
  · split
    · exact turn t f
    · exact refl t
  · exact refl t
  · exact refl t

/-- The end of a locate and of the follows touches no port but in its queue. -/
theorem endMotionOfMode_queuesOnly (before s : State) (m : MachineId) : QueuesOnly s (endMotionOfMode before s m) := by
  unfold endMotionOfMode
  have reported : QueuesOnly (changeMachine s m MachineRec.locateEnded)
      (configurationEndsLocate before (changeMachine s m MachineRec.locateEnded) m) :=
    fun n => by rw [(configurationEndsLocate_kept before _ m n).2]
  refine (QueuesOnly.of_ports (changeMachine_ports s m MachineRec.locateEnded)).trans (reported.trans ?_)
  exact cancelFollowsOf_induction .refl (fun _ _ _ => .trans) cancelFollow_queuesOnly _ m

/-! ### No machine follows one whose follows are cancelled -/

/-- Every follow ends or stays: a machine's leader is as it was, or there is none. -/
def LeadersKeptOrGone (s t : State) : Prop :=
  ∀ n, (t.machine n).leader = (s.machine n).leader ∨ (t.machine n).leader = .noLeader

theorem cancelFollow_leaders (s : State) (f : MachineId) : LeadersKeptOrGone s (cancelFollow s f) := by
  intro n
  by_cases hn : n = f
  · subst hn; exact .inr (by rw [cancelFollow_machine])
  · exact .inl (by rw [(cancelFollow_others s f n hn).2])

theorem cancelFollowsOf_unled (s : State) (m f : MachineId) (off : Int) :
    ((cancelFollowsOf s m).machine f).leader ≠ .machine m off := by
  have stays {t : State} {g : MachineId} (h : (t.machine f).leader ≠ .machine m off) :
      ((cancelFollow t g).machine f).leader ≠ .machine m off := by
    rcases cancelFollow_leaders t g f with kept | gone
    · rwa [kept]
    · simp [gone]
  refine foldl_establishes (A := fun _ => True) (Q := fun x : State => (x.machine f).leader ≠ .machine m off) (a := f)
    (fun _ _ _ => trivial) (fun t g _ h => ?_) (fun t _ => ?_) (Unit8.mem_all f) trivial
  · split
    · split
      · exact stays h
      · exact h
    · exact h
    · exact h
  · split
    · rename_i l k hl
      split
      · rw [cancelFollow_machine]; simp
      · rename_i other
        rw [hl]
        intro same
        exact other (.inr (Leader.machine.inj same).1)
    · rename_i hl; simp [hl]
    · rename_i hl; simp [hl]

/-! ### A machine newly configured (R90, R96, R117) -/

/-- The state in which a newly configured machine is reported. -/
def newlyConfigured (s : State) (m : MachineId) (p : ConfigureParams) : State :=
  raiseMachineState ((s.setPort m (s.port m).configured).setMachine m
    (configuredRec (mergeParams (defaultParams s.timeline.standard) p))) m

/-- A newly configured machine has its record and port written and reported, and STOP placed while the STOP input is asserted
(R117). -/
theorem configureNew_eq (s : State) (m : MachineId) (p : ConfigureParams) :
    configureNew s m p = stopIfAsserted (newlyConfigured s m p) m .online := by
  unfold configureNew changeLink newlyConfigured
  simp [configuredRec, unconfiguredRec, MachineRec.afterLink, linkReason, State.setPort, State.setMachine, State.port,
    State.machine, Port.configured]

theorem stopIfAsserted_cases (s : State) (m : MachineId) :
    stopIfAsserted s m .online = if s.stopAsserted then tryStop s m else s := by
  unfold stopIfAsserted
  simp

theorem newlyConfigured_machine (s : State) (m : MachineId) (p : ConfigureParams) :
    (newlyConfigured s m p).machine m = configuredRec (mergeParams (defaultParams s.timeline.standard) p) :=
  State.setMachine_machine _ m _

theorem newlyConfigured_port (s : State) (m : MachineId) (p : ConfigureParams) :
    (newlyConfigured s m p).port m = (s.port m).configured := State.setPort_port s m _

theorem newlyConfigured_others (s : State) (m : MachineId) (p : ConfigureParams) : OthersKept s (newlyConfigured s m p) m :=
  fun _ hn => ⟨State.setPort_port_other s _ hn, State.setMachine_machine_other _ _ hn⟩

theorem newlyConfigured_machinesOnly (s : State) (m : MachineId) (p : ConfigureParams) :
    MachinesOnly s (newlyConfigured s m p) :=
  ((MachinesOnly.setPort s m _).trans (.setMachine _ m _)).trans ⟨rfl, raiseNotice_onlyNotices _ _⟩

theorem newlyConfigured_noticed (s : State) (m : MachineId) (p : ConfigureParams) :
    Noticed (newlyConfigured s m p) (.machineState m .online .free false .noLeader none .stale) := by
  have raised := raiseNotice_noticed ((s.setPort m (s.port m).configured).setMachine m
    (configuredRec (mergeParams (defaultParams s.timeline.standard) p)))
    (machineStateNotice ((s.setPort m (s.port m).configured).setMachine m
      (configuredRec (mergeParams (defaultParams s.timeline.standard) p))) m)
  have report : machineStateNotice ((s.setPort m (s.port m).configured).setMachine m
      (configuredRec (mergeParams (defaultParams s.timeline.standard) p))) m
        = .machineState m .online .free false .noLeader none .stale := by
    simp [machineStateNotice, State.link, Port.configured, configuredRec, unconfiguredRec]
  rw [report] at raised
  rwa [newlyConfigured, raiseMachineState, report]

/-- An idle port newly configured takes STOP at once (R117). -/
theorem Port.configured_placeStop (p : Port) :
    p.configured.placeMotion .stop = .ok { p.configured with queue := [⟨.stop, none⟩] } := rfl

/-- What CONFIGURE MACHINE makes of a machine that was not configured. -/
structure MachineMade (s t : State) (m : MachineId) (p : ConfigureParams) : Prop where
  record : t.machine m = { configuredRec (mergeParams (defaultParams s.timeline.standard) p) with
    lastSpeed := (t.machine m).lastSpeed }
  port : t.port m = { (s.port m).configured with queue := if s.stopAsserted then [⟨.stop, none⟩] else [] }
  others : OthersKept s t m
  only : MachinesOnly s t
  noticed : Noticed t (.machineState m .online .free false .noLeader none .stale)

theorem configureNew_made (s : State) (m : MachineId) (p : ConfigureParams) : MachineMade s (configureNew s m p) m p := by
  have record := newlyConfigured_machine s m p
  have port := newlyConfigured_port s m p
  have others := newlyConfigured_others s m p
  have only := newlyConfigured_machinesOnly s m p
  have noticed := newlyConfigured_noticed s m p
  have asserted : (newlyConfigured s m p).stopAsserted = s.stopAsserted := rfl
  rw [configureNew_eq, stopIfAsserted_cases, asserted]
  generalize newlyConfigured s m p = u at *
  by_cases stopped : s.stopAsserted = true
  · have placed : tryStop u m = (u.setPort m { (s.port m).configured with queue := [⟨.stop, none⟩] }).setMachine m
        { u.machine m with lastSpeed := some 0 } := by
      unfold tryStop tryMotion placeMotion
      rw [port, Port.configured_placeStop]
      rfl
    rw [if_pos stopped, placed]
    refine ⟨?_, ?_, fun n hn => ?_, only.trans ((MachinesOnly.setPort u m _).trans (.setMachine _ m _)), noticed⟩
    · rw [State.setMachine_machine, record]
    · rw [State.setMachine_port, State.setPort_port, if_pos stopped]
    · rw [State.setMachine_port, State.setPort_port_other _ _ hn, State.setMachine_machine_other _ _ hn]
      exact others n hn
  · rw [if_neg stopped]
    exact ⟨by rw [record], by rw [port, if_neg stopped]; rfl, others, only, noticed⟩

/-! ### A machine unconfigured (R90, R96) -/

/-- What the other action makes of a configured machine. -/
structure MachineUnmade (s t : State) (m : MachineId) : Prop where
  record : t.machine m = unconfiguredRec s.timeline.standard
  port : t.link m = .absent ∧ (t.port m).queue = [] ∧ (t.port m).exchange = none
  unled : ∀ f off, (t.machine f).leader ≠ .machine m off
  only : MachinesOnly s t

theorem unconfigure_unmade (s : State) (m : MachineId) : MachineUnmade s (unconfigure s m) m := by
  unfold unconfigure
  have unled := fun f off =>
    cancelFollowsOf_unled (configurationEndsLocate s (changeMachine s m MachineRec.locateEnded) m) m f off
  have only : MachinesOnly s (cancelFollowsOf (configurationEndsLocate s (changeMachine s m MachineRec.locateEnded) m) m) :=
    endMotionOfMode_machinesOnly s s m
  dsimp only
  generalize cancelFollowsOf (configurationEndsLocate s (changeMachine s m MachineRec.locateEnded) m) m = u at *
  have standard : u.timeline = s.timeline := by rw [only.1]
  refine ⟨?_, ?_, fun f off => ?_, only.trans (((MachinesOnly.setPort u m _).trans (.setMachine _ m _)).trans
    ⟨rfl, raiseNotice_onlyNotices _ _⟩)⟩
  · rw [← standard]
    exact State.setMachine_machine _ m _
  · have port : (raiseMachineState ((u.setPort m (u.port m).unconfigured).setMachine m
        (unconfiguredRec u.timeline.standard)) m).port m = (u.port m).unconfigured := State.setPort_port u m _
    exact ⟨congrArg Port.link port, congrArg Port.queue port, congrArg Port.exchange port⟩
  · show (((u.setPort m (u.port m).unconfigured).setMachine m (unconfiguredRec u.timeline.standard)).machine f).leader ≠ _
    by_cases hf : f = m
    · subst hf; rw [State.setMachine_machine]; simp [unconfiguredRec]
    · rw [State.setMachine_machine_other _ _ hf]; exact unled f off

/-! ### New parameters (R90, R96) -/

section reconfigure

variable (s : State) (m : MachineId) (p : ConfigureParams)

@[simp] theorem reconfigure_machine :
    (reconfigure s m p).machine m
      = { s.machine m with params := { mergeParams (s.machine m).params p with mode := modeOf s m } } :=
  State.setMachine_machine _ m _

@[simp] theorem reconfigure_port :
    (reconfigure s m p).port m = (s.port m).withCtl (mergeParams (s.machine m).params p).ctlEnable :=
  State.setPort_port s m _

theorem reconfigure_others : OthersKept s (reconfigure s m p) m :=
  fun _ hn => ⟨State.setPort_port_other s _ hn, State.setMachine_machine_other _ _ hn⟩

theorem reconfigure_machinesOnly : MachinesOnly s (reconfigure s m p) :=
  (MachinesOnly.setPort s m _).trans (.setMachine _ m _)

end reconfigure

/-- New parameters without a change of label mode are the request's over the old ones. -/
theorem reconfigure_sameMode {s : State} {m : MachineId} {p : ConfigureParams}
    (same : (mergeParams (s.machine m).params p).mode = (s.machine m).params.mode) :
    (reconfigure s m p).machine m = { s.machine m with params := mergeParams (s.machine m).params p } := by
  have mode : modeOf s m = (mergeParams (s.machine m).params p).mode := same.symm
  rw [reconfigure_machine, mode]

/-! ### A change of label mode (R3, R90, R96) -/

/-- What a change of label mode makes of a configured machine. -/
structure ModeChanged (s t : State) (m : MachineId) (mode : LabelMode) : Prop where
  params : (t.machine m).params = { (s.machine m).params with mode := mode }
  configured : (t.machine m).configured = true
  position : (t.machine m).position = none ∧ (t.machine m).quality = .stale
  marks : (t.machine m).markIn = none ∧ (t.machine m).markOut = none
  still : (t.machine m).following = false ∧ (t.machine m).control ≠ .locating
  ctl : (t.port m).ctlAnchor = none ∧ (t.port m).ctlCounter = 0 ∧ (t.port m).ctlTally = 0
  unled : ∀ f off, (t.machine f).leader ≠ .machine m off
  link : OnlyNotices s t
  frame : t = { s with
    ports := t.ports, machines := t.machines, console := t.console
    timeline := { s.timeline with origin := if s.recorder = some m then 0 else s.timeline.origin } }

theorem changeModeTo_changed {s : State} {m : MachineId} (configured : (s.machine m).configured = true) (mode : LabelMode) :
    ModeChanged s (changeModeTo s m mode) m mode := by
  have entered : ((enterMode s m mode).machine m).configured = true := by rw [enterMode_machine]; exact configured
  obtain ⟨ends, free, still⟩ := endMotionOfMode_ends s entered
  have queues := endMotionOfMode_queuesOnly s (enterMode s m mode) m m
  have unled : ∀ f off, ((endMotionOfMode s (enterMode s m mode) m).machine f).leader ≠ .machine m off :=
    fun f off => by unfold endMotionOfMode; exact cancelFollowsOf_unled _ m f off
  have only := changeLabelMode_machinesOnly s m mode
  obtain ⟨own, -⟩ := ends m
  have port : (enterMode s m mode).port m = (s.port m).anchorCleared := State.setPort_port s m _
  rw [enterMode_machine] at own
  rw [port] at queues
  unfold changeModeTo
  unfold changeLabelMode at *
  generalize endMotionOfMode s (enterMode s m mode) m = u at *
  have ctl : (u.port m).ctlAnchor = none ∧ (u.port m).ctlCounter = 0 ∧ (u.port m).ctlTally = 0 := by
    rw [queues]; exact ⟨rfl, rfl, rfl⟩
  obtain ⟨frame, link⟩ := only
  split
  · refine ⟨own.params, own.configured.trans configured, ⟨own.position, own.quality⟩, own.marks, ⟨free, still⟩, ctl, unled, link, ?_⟩
    rename_i recorder
    rw [if_pos recorder]
    unfold zeroOrigin State.updateTimeline
    rw [frame]
  · refine ⟨own.params, own.configured.trans configured, ⟨own.position, own.quality⟩, own.marks, ⟨free, still⟩, ctl, unled, link, ?_⟩
    rename_i recorder
    rw [if_neg recorder]
    exact frame

/-! ### The tests of R95 in order -/

section answers

variable {s : State} {m : MachineId} {action : Nat} {configure : Bool} {p : ConfigureParams}

theorem configureOf_eq (h : action ≤ 1) : configureOf? action = some (action == 1) := by
  match action, h with
  | 0, _ => rfl
  | 1, _ => rfl

theorem answerConfigure_unknown (h : 1 < action ∨ modeKnown p = false) :
    answerConfigure m action p s = refuseWith s .badRequest := by
  unfold answerConfigure
  split
  · rfl
  · rename_i known
    rcases h with beyond | unknown
    · match action, beyond with
      | n + 2, _ => simp [configureOf?] at known
    · rw [unknown]; rfl

/-- The answer of a request whose parameters are known and in range turns on what it would do alone. -/
theorem answerConfigure_passed (h : action ≤ 1) (known : modeKnown p = true)
    (range : paramsInRange s.timeline.standard p = true) :
    answerConfigure m action p s
      = if configureInUse s m (action == 1) p then refuseWith s .inUse
        else if configureBusy s m (action == 1) p then refuseWith s .busy
        else ⟨configured s m (action == 1) p, .ok, machineData (configured s m (action == 1) p) m⟩ := by
  unfold answerConfigure
  rw [configureOf_eq h, known, range]
  rfl

theorem answerConfigure_range (h : action ≤ 1) (known : modeKnown p = true)
    (range : paramsInRange s.timeline.standard p = false) : answerConfigure m action p s = refuseWith s .range := by
  unfold answerConfigure
  rw [configureOf_eq h, known, range]
  rfl

end answers

/-! ### The four requests served -/

section served

variable {s : State} {m : MachineId} {p : ConfigureParams}

theorem configureInUse_of_new (h : (s.machine m).configured = false) (c : Bool) : configureInUse s m c p = false := by
  simp [configureInUse, wouldUnconfigure, wouldChangeMode, h]

theorem configureBusy_of_new (h : (s.machine m).configured = false) (c : Bool) : configureBusy s m c p = false := by
  simp [configureBusy, wouldChangeMode, h]

theorem configureInUse_of_kept (hm : (s.machine m).configured = true) (same : wouldChangeMode s m true p = false) :
    configureInUse s m true p = false := by
  simp [configureInUse, wouldUnconfigure, hm, same]

theorem configured_new (hm : (s.machine m).configured = false) : configured s m true p = configureNew s m p := by
  unfold configured; rw [hm]; rfl

theorem configured_kept (hm : (s.machine m).configured = true) (same : wouldChangeMode s m true p = false) :
    configured s m true p = reconfigure s m p := by
  unfold configured; rw [hm, same]; rfl

theorem configured_moded (hm : (s.machine m).configured = true) (changes : wouldChangeMode s m true p = true) :
    configured s m true p = changeModeTo (reconfigure s m p) m (mergeParams (s.machine m).params p).mode := by
  unfold configured; rw [hm, changes]; rfl

theorem configured_gone (hm : (s.machine m).configured = true) : configured s m false p = unconfigure s m := by
  unfold configured; rw [hm]; rfl

theorem configured_absent (hm : (s.machine m).configured = false) : configured s m false p = s := by
  unfold configured; rw [hm]; rfl

theorem wouldChangeMode_iff (c : Bool) :
    wouldChangeMode s m c p = true
      ↔ (s.machine m).configured = true ∧ c = true ∧ (mergeParams (s.machine m).params p).mode ≠ (s.machine m).params.mode := by
  simp only [wouldChangeMode, Bool.and_eq_true, bne_iff_ne, and_assoc]
  rfl

theorem wouldChangeMode_same (same : (mergeParams (s.machine m).params p).mode = (s.machine m).params.mode) (c : Bool) :
    wouldChangeMode s m c p = false := by
  rw [Bool.eq_false_iff, Ne, wouldChangeMode_iff]
  exact fun h => h.2.2 same

variable {q : RequestMessage} {rest : List RequestMessage}

theorem configureNew_served (t : State)
    (ht : t = replyTo q ⟨configureNew (dequeued s rest) m p, .ok, machineData (configureNew (dequeued s rest) m p) m⟩) :
    Replied s t q rest .ok (machineData t m)
      ∧ ((t.machine m).configured = true ∧ (t.machine m).control = .free ∧ (t.machine m).claimed = false
        ∧ (t.machine m).leader = .noLeader ∧ (t.machine m).position = none ∧ (t.machine m).quality = .stale
        ∧ (t.machine m).markIn = none ∧ (t.machine m).markOut = none
        ∧ (t.machine m).params = mergeParams (defaultParams s.timeline.standard) p)
      ∧ (t.link m = .online ∧ (t.port m).errors = 0 ∧ (t.port m).exchange = none ∧ (t.port m).ctlAnchor = none
        ∧ (t.port m).ctlCounter = 0 ∧ (t.port m).ctlTally = 0
        ∧ (t.port m).queue = if s.stopAsserted then [⟨.stop, none⟩] else [])
      ∧ OthersKept s t m ∧ Noticed t (.machineState m .online .free false .noLeader none .stale)
      ∧ t = { s with ports := t.ports, machines := t.machines, console := t.console } := by
  obtain ⟨record, port, others, only, noticed⟩ := configureNew_made (dequeued s rest) m p
  generalize configureNew (dequeued s rest) m p = u at *
  obtain ⟨reply, frame⟩ := machines_replied (q := q) only .ok (machineData u m)
  subst ht
  have machine : (replyTo q ⟨u, .ok, machineData u m⟩).machine m = u.machine m := rfl
  have link : (replyTo q ⟨u, .ok, machineData u m⟩).port m = u.port m := rfl
  refine ⟨reply, ?_, ?_, others, noticed, frame⟩
  · rw [machine, record]
    exact ⟨rfl, rfl, rfl, rfl, rfl, rfl, rfl, rfl, rfl⟩
  · rw [State.link, link, port]
    exact ⟨rfl, rfl, rfl, rfl, rfl, rfl, rfl⟩

theorem reconfigure_served (same : (mergeParams (s.machine m).params p).mode = (s.machine m).params.mode) (t : State)
    (ht : t = replyTo q ⟨reconfigure (dequeued s rest) m p, .ok, machineData (reconfigure (dequeued s rest) m p) m⟩) :
    Replied s t q rest .ok (machineData t m)
      ∧ t.machine m = { s.machine m with params := mergeParams (s.machine m).params p }
      ∧ t.port m = (if (mergeParams (s.machine m).params p).ctlEnable then s.port m
          else { s.port m with ctlCounter := 0, ctlTally := 0 })
      ∧ OthersKept s t m ∧ t.console.notices = s.console.notices
      ∧ t = { s with ports := t.ports, machines := t.machines, console := t.console } := by
  obtain ⟨reply, frame⟩ := machines_replied (q := q) (reconfigure_machinesOnly (dequeued s rest) m p) .ok
    (machineData (reconfigure (dequeued s rest) m p) m)
  subst ht
  exact ⟨reply, reconfigure_sameMode (s := dequeued s rest) same, reconfigure_port (dequeued s rest) m p,
    reconfigure_others (dequeued s rest) m p, rfl, frame⟩

theorem changeModeTo_served (hm : (s.machine m).configured = true) (t : State)
    (ht : t = replyTo q
      ⟨changeModeTo (reconfigure (dequeued s rest) m p) m (mergeParams (s.machine m).params p).mode, .ok,
        machineData (changeModeTo (reconfigure (dequeued s rest) m p) m (mergeParams (s.machine m).params p).mode) m⟩) :
    Replied s t q rest .ok (machineData t m)
      ∧ (t.machine m).params = mergeParams (s.machine m).params p ∧ (t.machine m).configured = true
      ∧ (t.machine m).position = none ∧ (t.machine m).quality = .stale ∧ (t.machine m).markIn = none
      ∧ (t.machine m).markOut = none ∧ (t.machine m).following = false ∧ (t.machine m).control ≠ .locating
      ∧ (t.port m).ctlAnchor = none ∧ (t.port m).ctlCounter = 0 ∧ (t.port m).ctlTally = 0
      ∧ (∀ f off, (t.machine f).leader ≠ .machine m off)
      ∧ t.timeline.origin = (if s.recorder = some m then 0 else s.timeline.origin)
      ∧ t.run = s.run ∧ t.store = s.store ∧ t.recorder = s.recorder ∧ t.effects = s.effects ∧ t.cues = s.cues := by
  have record := reconfigure_machine (dequeued s rest) m p
  have configured : ((reconfigure (dequeued s rest) m p).machine m).configured = true := by rw [record]; exact hm
  have changed := changeModeTo_changed configured (mergeParams (s.machine m).params p).mode
  have params := changed.params
  rw [record] at params
  obtain ⟨-, link⟩ := reconfigure_machinesOnly (dequeued s rest) m p
  have links : OnlyNotices (dequeued s rest) _ := link.trans changed.link
  have frame := changed.frame
  generalize changeModeTo (reconfigure (dequeued s rest) m p) m (mergeParams (s.machine m).params p).mode = u at *
  subst ht
  refine ⟨link_replied links .ok _, params, changed.configured, changed.position.1, changed.position.2, changed.marks.1,
    changed.marks.2, changed.still.1, changed.still.2, changed.ctl.1, changed.ctl.2.1, changed.ctl.2.2, changed.unled, ?_, ?_⟩
  · show u.timeline.origin = _
    rw [frame]
    rfl
  · show u.run = _ ∧ u.store = _ ∧ u.recorder = _ ∧ u.effects = _ ∧ u.cues = _
    rw [frame]
    exact ⟨rfl, rfl, rfl, rfl, rfl⟩

theorem unconfigure_served (t : State)
    (ht : t = replyTo q ⟨unconfigure (dequeued s rest) m, .ok, machineData (unconfigure (dequeued s rest) m) m⟩) :
    Replied s t q rest .ok (machineData t m)
      ∧ (t.machine m).configured = false ∧ (t.machine m).control = .free ∧ (t.machine m).leader = .noLeader
      ∧ (t.machine m).position = none ∧ (t.machine m).markIn = none ∧ (t.machine m).markOut = none
      ∧ t.link m = .absent ∧ (t.port m).queue = [] ∧ (t.port m).exchange = none
      ∧ (∀ f off, (t.machine f).leader ≠ .machine m off)
      ∧ t = { s with ports := t.ports, machines := t.machines, console := t.console } := by
  obtain ⟨record, ⟨link, queue, exchange⟩, unled, only⟩ := unconfigure_unmade (dequeued s rest) m
  generalize unconfigure (dequeued s rest) m = u at *
  obtain ⟨reply, frame⟩ := machines_replied (q := q) only .ok (machineData u m)
  subst ht
  have machine : (replyTo q ⟨u, .ok, machineData u m⟩).machine m = u.machine m := rfl
  rw [machine, record]
  exact ⟨reply, rfl, rfl, rfl, rfl, rfl, rfl, link, queue, exchange, unled, frame⟩

end served

/-- Settles O29: the tests of R95 in their order, and what each of the four requests leaves. -/
theorem configureMachineWritesRecord : Obligations.ConfigureMachineWritesRecord := by
  intro s q rest m action p head
  have served := exec_served (c := .configureMachine) head rfl rfl
  refine ⟨fun h => refuses_of served (answerConfigure_unknown h), fun h known range =>
    refuses_of served (answerConfigure_range h known range), fun h known range => ?_⟩
  have answer : answerConfigure m action p (dequeued s rest) = _ := answerConfigure_passed h known range
  have inUse (c : Bool) : configureInUse (dequeued s rest) m c p = configureInUse s m c p := rfl
  have busy (c : Bool) : configureBusy (dequeued s rest) m c p = configureBusy s m c p := rfl
  rw [inUse, busy] at answer
  have accepted {u : State} (free : configureInUse s m (action == 1) p = false)
      (idle : configureBusy s m (action == 1) p = false) (done : configured (dequeued s rest) m (action == 1) p = u) :
      exec .configureMachine s = .next (replyTo q ⟨u, .ok, machineData u m⟩) := by
    rw [free, idle, done] at answer
    exact served.trans (congrArg (fun a => Host.Outcome.next (replyTo q a)) answer)
  have refused (used : configureInUse s m (action == 1) p = true) : Refuses .configureMachine s q rest .inUse :=
    refuses_of served (answer.trans (if_pos used))
  have unused (unclaimed : (s.machine m).claimed = false) (unreferenced : anyReferences s m = false) (c : Bool)
      (other : wouldUnconfigure s m c = false ∨ s.recorder ≠ some m) : configureInUse s m c p = false := by
    unfold configureInUse
    rcases other with kept | other
    · simp [unclaimed, unreferenced, kept]
    · simp [unclaimed, unreferenced, other]
  refine ⟨?new, ?kept, ?moded, ?gone, ?absent, ?inUse, ?recorder, ?busy⟩
  case new =>
    rintro rfl hm
    exact ⟨_, accepted (configureInUse_of_new hm _) (configureBusy_of_new hm _) (configured_new (s := dequeued s rest) hm),
      configureNew_served (p := p) _ rfl⟩
  case kept =>
    rintro rfl hm same
    have kept := wouldChangeMode_same same true
    exact ⟨_, accepted (configureInUse_of_kept hm kept) (by simp [configureBusy, kept])
      (configured_kept (s := dequeued s rest) hm kept), reconfigure_served same _ rfl⟩
  case moded =>
    rintro rfl hm changed unclaimed unreferenced idle
    have changes := (wouldChangeMode_iff true).mpr ⟨hm, rfl, changed⟩
    refine ⟨_, accepted (unused unclaimed unreferenced _ (.inl (by simp [wouldUnconfigure]))) ?_
      (configured_moded (s := dequeued s rest) hm changes), changeModeTo_served hm _ rfl⟩
    by_cases recorder : s.recorder = some m
    · simp [configureBusy, (runIdle_iff s).mpr (idle recorder)]
    · simp [configureBusy, recorder]
  case gone =>
    rintro rfl hm unreferenced unclaimed other
    exact ⟨_, accepted (unused unclaimed unreferenced _ (.inr other)) (by simp [configureBusy, wouldChangeMode])
      (configured_gone (s := dequeued s rest) hm), unconfigure_served _ rfl⟩
  case absent =>
    rintro rfl hm
    exact accepted (configureInUse_of_new hm _) (configureBusy_of_new hm _) (configured_absent (s := dequeued s rest) hm)
  case inUse =>
    intro hm needed asks
    refine refused ?_
    have would : wouldUnconfigure s m (action == 1) = true ∨ wouldChangeMode s m (action == 1) p = true := by
      rcases asks with rfl | changed
      · simp [wouldUnconfigure, hm]
      · match action, h with
        | 0, _ => simp [wouldUnconfigure, hm]
        | 1, _ => exact .inr ((wouldChangeMode_iff true).mpr ⟨hm, rfl, changed⟩)
    unfold configureInUse
    rcases would with would | would <;> rcases needed with needed | needed <;> simp [would, needed]
  case recorder =>
    rintro hm rfl recorder
    exact refused (by simp [configureInUse, wouldUnconfigure, hm, recorder])
  case busy =>
    rintro rfl hm changed unclaimed unreferenced recorder active
    have changes := (wouldChangeMode_iff true).mpr ⟨hm, rfl, changed⟩
    have free := unused unclaimed unreferenced true (.inl (by simp [wouldUnconfigure]))
    have running : runIdle s = false := by rw [Bool.eq_false_iff, Ne, runIdle_iff]; exact active
    have busy : configureBusy s m true p = true := by simp [configureBusy, changes, recorder, running]
    exact refuses_of served ((answer.trans (if_neg (by simp [free]))).trans (if_pos busy))

end Sys2Proof.Machine
end

section
/-! Faults of a deck link (R75 to R82): what a hold or a deferred fault leaves of the ports, the reports of a port that goes
OFFLINE or LOCAL, and the statements on faults, the fault limit and the NAKs. -/

namespace Sys2Proof.Machine

/-! ### What a hold leaves of the ports and the motions -/

/-- A port in a hold: requests may have been placed if it is ONLINE, and nothing else is changed. -/
structure PortHeld (p q : Port) : Prop where
  frame : q = { p with queue := q.queue, exchange := q.exchange }
  offline : p.link ≠ .online → q = p
  exchange : q.exchange = p.exchange ∨ q.exchange = p.offLine.exchange

theorem Port.offLine_twice {p q : Port} (h : q.exchange = p.offLine.exchange) : q.offLine.exchange = p.offLine.exchange := by
  unfold Port.offLine at *
  rw [h]
  cases p.exchange <;> rfl

theorem PortHeld.refl (p : Port) : PortHeld p p := ⟨rfl, fun _ => rfl, .inl rfl⟩

theorem PortHeld.trans {p q r : Port} (h : PortHeld p q) (k : PortHeld q r) : PortHeld p r where
  frame := by rw [k.frame, h.frame]
  offline off := by
    have same := h.offline off
    rw [k.offline (by rw [same]; exact off), same]
  exchange := by
    rcases k.exchange with same | off
    · rw [same]; exact h.exchange
    · refine .inr (off.trans ?_)
      rcases h.exchange with same | off
      · unfold Port.offLine; rw [same]
      · exact Port.offLine_twice off

/-- A motion goes on as it was, or has ended. -/
def MotionHeld (x y : MachineRec) : Prop :=
  (y.control = x.control ∧ y.locate = x.locate) ∨ (y.control = .free ∧ y.locate = none)

theorem MotionHeld.refl (x : MachineRec) : MotionHeld x x := .inl ⟨rfl, rfl⟩

theorem MotionHeld.trans {x y z : MachineRec} (h : MotionHeld x y) (k : MotionHeld y z) : MotionHeld x z := by
  rcases k with ⟨control, locate⟩ | ended
  · unfold MotionHeld
    rw [control, locate]
    exact h
  · exact .inr ended

/-- What a hold leaves of every port and every motion. -/
structure UnitsHeld (s t : State) : Prop where
  port : ∀ n, PortHeld (s.port n) (t.port n)
  motion : ∀ n, MotionHeld (s.machine n) (t.machine n)
  parked : ∀ n, (t.machine n).parkedFlag = (s.machine n).parkedFlag

namespace UnitsHeld

theorem refl (s : State) : UnitsHeld s s := ⟨fun _ => .refl _, fun _ => .refl _, fun _ => rfl⟩

theorem trans {s t u : State} (h : UnitsHeld s t) (k : UnitsHeld t u) : UnitsHeld s u :=
  ⟨fun n => (h.port n).trans (k.port n), fun n => (h.motion n).trans (k.motion n), fun n => (k.parked n).trans (h.parked n)⟩

theorem of_eq {s t : State} (ports : t.ports = s.ports) (machines : t.machines = s.machines) : UnitsHeld s t := by
  refine ⟨fun n => ?_, fun n => ?_, fun n => ?_⟩
  · unfold State.port; rw [ports]; exact .refl _
  · unfold State.machine; rw [machines]; exact .refl _
  · unfold State.machine; rw [machines]

theorem foldl {α : Type} {f : State → α → State} (hf : ∀ s a, UnitsHeld s (f s a)) (l : List α) (s : State) :
    UnitsHeld s (l.foldl f s) := foldl_rel refl (fun _ _ _ => trans) hf l s

theorem changeMachine {s : State} {m : MachineId} {f : MachineRec → MachineRec} (h : MotionHeld (s.machine m) (f (s.machine m)))
    (parked : (f (s.machine m)).parkedFlag = (s.machine m).parkedFlag) : UnitsHeld s (changeMachine s m f) := by
  refine ⟨fun n => by rw [changeMachine_port]; exact .refl _, fun n => ?_, fun n => ?_⟩
  · by_cases hn : n = m
    · rw [hn, changeMachine_machine]; exact h
    · rw [changeMachine_machine_other _ _ hn]; exact .refl _
  · by_cases hn : n = m
    · rw [hn, changeMachine_machine]; exact parked
    · rw [changeMachine_machine_other _ _ hn]

theorem setPort {s : State} {m : MachineId} {p : Port} (h : PortHeld (s.port m) p) : UnitsHeld s (s.setPort m p) := by
  refine ⟨fun n => ?_, fun _ => .refl _, fun _ => rfl⟩
  by_cases hn : n = m
  · rw [hn, State.setPort_port]; exact h
  · rw [State.setPort_port_other s p hn]; exact .refl _

end UnitsHeld

theorem Port.placeMotion_held {p q : Port} {r : DeckRequest} (h : p.placeMotion r = .ok q) : PortHeld p q := by
  obtain ⟨online, -, frame⟩ := Port.placeMotion_spec h
  refine ⟨frame, fun off => absurd online off, ?_⟩
  rw [Port.placeMotion_online online] at h
  split at h
  · injection h with h
    rw [← h]
    dsimp only
    split
    · exact .inr rfl
    · exact .inl rfl
  · split at h
    · injection h with h
      rw [← h]
      exact .inl rfl
    · cases h

theorem Port.placeAhead_held {p : Port} {e : QueuedRequest} {r : Port × Option QueuedRequest} (h : p.placeAhead e = .ok r) :
    PortHeld p r.1 := by
  by_cases online : p.link = .online
  · rw [Port.placeAhead_online online] at h
    split at h
    · injection h with h
      rw [← h]
      exact ⟨rfl, fun off => absurd online off, .inl rfl⟩
    · split at h
      · injection h with h
        rw [← h]
        exact ⟨rfl, fun off => absurd online off, .inl rfl⟩
      · cases h
  · unfold Port.placeAhead at h
    split at h
    · cases h
    · rename_i refusal
      cases link : p.link <;> rw [link] at refusal online <;> simp [linkRefusal] at refusal online

theorem tryMotion_units (s : State) (m : MachineId) (r : DeckRequest) (v : Int) : UnitsHeld s (tryMotion s m r v) := by
  rcases tryMotion_cases s m r v with h | ⟨p, hp, h⟩ <;> rw [h]
  · exact .refl s
  · refine (UnitsHeld.setPort (Port.placeMotion_held hp)).trans ⟨fun _ => .refl _, fun n => ?_, fun n => ?_⟩
    · by_cases hn : n = m
      · rw [hn, State.setMachine_machine]; exact .refl _
      · rw [State.setMachine_machine_other _ _ hn]; exact .refl _
    · by_cases hn : n = m
      · rw [hn, State.setMachine_machine]; rfl
      · rw [State.setMachine_machine_other _ _ hn]

theorem reportLocateFailure_units (s : State) (m : MachineId) (l : Locate) (target : Label) (reason : LocateReason) :
    UnitsHeld s (reportLocateFailure s m l target reason).1 :=
  ⟨fun n => by rw [reportLocateFailure_port]; exact .refl _, fun n => by rw [reportLocateFailure_machine]; exact .refl _,
    fun n => by rw [reportLocateFailure_machine]⟩

theorem failLocate_units (s : State) (m : MachineId) (reason : LocateReason) : UnitsHeld s (failLocate s m reason).1 := by
  unfold failLocate
  split
  · exact (UnitsHeld.changeMachine (.inr ⟨rfl, rfl⟩) rfl).trans (reportLocateFailure_units _ m _ _ _)
  · exact .refl s

theorem releaseMachine_units (s : State) (m : MachineId) : UnitsHeld s (releaseMachine s m) := by
  unfold releaseMachine
  split
  · exact (tryMotion_units s m .stop 0).trans (.changeMachine (.inr ⟨rfl, rfl⟩) rfl)
  · exact .refl s

theorem holdEditOff_units (s : State) : UnitsHeld s (holdEditOff s) := by
  unfold holdEditOff
  split
  · exact .refl s
  dsimp only
  split
  · exact .of_eq rfl rfl
  split
  · exact .of_eq rfl rfl
  rename_i m _ _ p lost placed
  have here : UnitsHeld s ((editSetCleared s).setPort m p) :=
    (UnitsHeld.of_eq (s := s) (t := editSetCleared s) rfl rfl).trans (.setPort (Port.placeAhead_held placed))
  split
  · split
    · exact here.trans (failLocate_units _ m _)
    · exact here
  · exact here

theorem holdRun_units (s : State) (cause : HoldCause) (m : Option MachineId) : UnitsHeld s (holdRun s cause m) := by
  by_cases active : s.run.phase.active = true
  · refine ((holdEditOff_units s).trans (.foldl releaseMachine_units _ _)).trans (t := holdReleased s) (.of_eq ?_ ?_)
    · rw [holdRun_frame active]
    · rw [holdRun_frame active]
  · rw [holdRun_atRest (by simpa using active)]
    exact .refl s

theorem takeReport_units (s : State) (r : RunReport) : UnitsHeld s (takeReport s r) := by
  rcases takeReport_cases s r with same | ⟨c, m, held⟩ | ⟨c, m, deferred⟩
  · rw [same]; exact .refl s
  · rw [held]; exact holdRun_units s c m
  · rw [deferred]; exact .of_eq rfl rfl

theorem deliver_units (x : State × List RunReport) : UnitsHeld x.1 (deliver x) := .foldl takeReport_units _ _

/-! ### A hold of a run whose machines have been changed before -/

/-- Work that changes machines, ports and notices alone, and makes and ends no claim. -/
structure MachinesWork (s t : State) : Prop where
  only : MachinesOnly s t
  claims : ∀ n, (t.machine n).claimed = (s.machine n).claimed

namespace MachinesWork

theorem refl (s : State) : MachinesWork s s := ⟨.refl s, fun _ => rfl⟩

theorem trans {s t u : State} (h : MachinesWork s t) (k : MachinesWork t u) : MachinesWork s u :=
  ⟨h.only.trans k.only, fun n => (k.claims n).trans (h.claims n)⟩

theorem setPort (s : State) (m : MachineId) (p : Port) : MachinesWork s (s.setPort m p) := ⟨.setPort s m p, fun _ => rfl⟩

theorem setMachine {s : State} {m : MachineId} {r : MachineRec} (h : r.claimed = (s.machine m).claimed) :
    MachinesWork s (s.setMachine m r) := by
  refine ⟨.setMachine s m r, fun n => ?_⟩
  by_cases hn : n = m
  · rw [hn, State.setMachine_machine]; exact h
  · rw [State.setMachine_machine_other _ _ hn]

theorem changeMachine {s : State} {m : MachineId} {f : MachineRec → MachineRec}
    (h : (f (s.machine m)).claimed = (s.machine m).claimed) : MachinesWork s (changeMachine s m f) := by
  refine ⟨changeMachine_machinesOnly s m f, fun n => ?_⟩
  by_cases hn : n = m
  · rw [hn, changeMachine_machine]; exact h
  · rw [changeMachine_machine_other _ _ hn]

theorem raiseNotice (s : State) (n : Notice) : MachinesWork s (raiseNotice s n) := ⟨⟨rfl, raiseNotice_onlyNotices s n⟩, fun _ => rfl⟩

theorem tryMotion (s : State) (m : MachineId) (r : DeckRequest) (v : Int) : MachinesWork s (tryMotion s m r v) := by
  refine ⟨tryMotion_machinesOnly s m r v, fun n => ?_⟩
  by_cases hn : n = m
  · rw [hn, tryMotion_record]
  · rw [(tryMotion_others s m r v n hn).2]

theorem reportLocateFailure (s : State) (m : MachineId) (l : Locate) (target : Label) (reason : LocateReason) :
    MachinesWork s (reportLocateFailure s m l target reason).1 :=
  ⟨reportLocateFailure_machinesOnly s m l target reason, fun n => by rw [reportLocateFailure_machine]⟩

theorem failLocate (s : State) (m : MachineId) (reason : LocateReason) : MachinesWork s (failLocate s m reason).1 :=
  ⟨failLocate_machinesOnly s m reason, fun n => failLocate_claimed s m n reason⟩

/-- What a hold leaves of the state after such work is what it leaves of the state before. -/
theorem holdTaken {s u t : State} {cause : HoldCause} (h : MachinesWork s u) (taken : HoldTaken u t cause) : HoldTaken s t cause := by
  obtain ⟨only, claims⟩ := h
  obtain ⟨phase, kept, released, clock, lines, set, stop, found, list, effects, recorder, params⟩ := taken
  have machines : runMachines u = runMachines s := by unfold runMachines eventMachines; rw [only.run, only.recorder]
  have find (h : Nat) : findEvent u h = findEvent s h := by unfold findEvent; rw [only.store]
  refine ⟨phase, ?_, fun m hm => ?_, clock, fun g => ?_, set, ?_, fun h e => ?_, ?_, ?_, ?_, ?_⟩
  · rw [only.run] at kept; exact kept
  · rw [machines] at released
    rw [← claims m]
    exact released m hm
  · rw [lines g]; unfold State.cueLine; rw [only.cues]
  · rw [stop, only.cues]
  · have := found h e
    rw [find, only.run] at this
    exact this
  · rw [list]; unfold listOf; rw [only.store]
  · rw [effects, only.effects]
  · rw [recorder, only.recorder]
  · rw [params, only.runParams]

theorem faultDeferred {s u t : State} {cause : HoldCause} {m : MachineId} (h : MachinesWork s u) (deferred : FaultDeferred u t cause m) :
    FaultDeferred s t cause m := by
  unfold FaultDeferred at *
  rw [h.only.run, h.only.timeline, h.only.store] at deferred
  exact deferred

end MachinesWork

/-! ### The reports of a port that goes OFFLINE or LOCAL (R79, R81, R94) -/

/-- The reports of run locates that a change to a link state ends: LOST ones, and that of the link state. -/
def LinkReports (m : MachineId) (link : LinkState) (rs : List RunReport) : Prop :=
  ∀ r ∈ rs, r = .locateFailed m .lost ∨ ∃ reason, linkReason link = some reason ∧ r = .locateFailed m reason

theorem LinkReports.append {m : MachineId} {link : LinkState} {rs qs : List RunReport} (h : LinkReports m link rs)
    (k : LinkReports m link qs) : LinkReports m link (rs ++ qs) := by
  intro r hr
  rcases List.mem_append.1 hr with hr | hr
  · exact h r hr
  · exact k r hr

/-- A report of a locate that the link ends holds a run in CUEING with the link's cause, or does nothing. -/
theorem takeReport_link {s : State} {m : MachineId} {link : LinkState} {cause : HoldCause} (hc : linkCause link = some cause)
    {r : RunReport} (hr : r = .locateFailed m .lost ∨ ∃ reason, linkReason link = some reason ∧ r = .locateFailed m reason) :
    takeReport s r = s ∨ (s.run.phase = .cueing ∧ takeReport s r = holdRun s cause (some m)) := by
  by_cases cueing : s.run.phase = .cueing
  · unfold takeReport reportEffect
    rw [cueing]
    rcases hr with rfl | ⟨reason, hreason, rfl⟩
    · exact .inl rfl
    · cases link with
      | absent | online => cases hreason
      | offline | localMode =>
        cases hreason
        cases hc
        exact .inr ⟨rfl, rfl⟩
  · left
    unfold takeReport reportEffect
    obtain ⟨reason, rfl⟩ : ∃ reason, r = .locateFailed m reason := by
      rcases hr with rfl | ⟨reason, -, rfl⟩
      · exact ⟨_, rfl⟩
      · exact ⟨_, rfl⟩
    cases phase : s.run.phase with
    | cueing => exact absurd phase cueing
    | idle | rolling | editing | postroll | held => rfl

theorem deliver_append (s : State) (rs qs : List RunReport) : deliver (s, rs ++ qs) = deliver (deliver (s, rs), qs) :=
  List.foldl_append ..

theorem deliver_cons (s : State) (r : RunReport) (rs : List RunReport) : deliver (s, r :: rs) = deliver (takeReport s r, rs) := rfl

theorem deliver_linkReports {s : State} {m : MachineId} {link : LinkState} {cause : HoldCause} (hc : linkCause link = some cause)
    {rs : List RunReport} (h : LinkReports m link rs) :
    deliver (s, rs) = s ∨ (s.run.phase = .cueing ∧ deliver (s, rs) = holdRun s cause (some m)) := by
  induction rs with
  | nil => exact .inl rfl
  | cons r rs ih =>
    obtain ⟨first, later⟩ := List.forall_mem_cons.1 h
    rw [deliver_cons]
    rcases takeReport_link (s := s) hc first with same | ⟨cueing, held⟩
    · rw [same]; exact ih later
    · rw [held, deliver_atRest (holdRun_inactive s cause (some m))]
      exact .inr ⟨cueing, rfl⟩

/-- What the loss of a link leaves of the run. `s` is the state before the work of the machine and its port, `u` after. -/
structure LinkLost (s u t : State) (m : MachineId) (cause : HoldCause) : Prop where
  holds : (s.machine m).claimed = true → (s.run.phase = .cueing ∨ s.run.phase = .rolling ∨ s.run.phase = .editing) →
    HoldTaken s t cause ∧ Noticed t (.runHeld cause (some m) s.run.current (some s.run.phase) s.run.eventsDone)
  defers : (s.machine m).claimed = true → s.run.phase = .postroll → FaultDeferred s t cause m
  goes : (s.machine m).claimed = false → s.run.phase = .postroll → t.run = s.run
  rests : s.run.phase.active = false → t = u
  units : UnitsHeld u t
  list : listOf t = listOf u

theorem deliver_linkLost {s u : State} {m : MachineId} {link : LinkState} {cause : HoldCause} (hc : linkCause link = some cause)
    (work : MachinesWork s u) {rs : List RunReport} (reports : LinkReports m link rs) :
    LinkLost s u (deliver (u, rs ++ if (s.machine m).claimed then [.linkChanged m link] else [])) m cause := by
  have run := work.only.run
  have delivered := deliver_linkReports (s := u) hc reports
  refine ⟨fun claimed phase => ?_, fun claimed phase => ?_, fun unclaimed phase => ?_, fun rest => ?_, deliver_units (u, _),
    (deliver_step (u, _)).list⟩
  · have active : u.run.phase.active = true := by rw [run]; rcases phase with p | p | p <;> rw [p] <;> rfl
    have effect : takeReport u (.linkChanged m link) = holdRun u cause (some m) := by
      unfold takeReport reportEffect
      rw [run]
      rcases phase with p | p | p <;> rw [p] <;> simp [hc, holdIf]
    have held : deliver (u, rs ++ [.linkChanged m link]) = holdRun u cause (some m) := by
      rw [deliver_append]
      rcases delivered with same | ⟨-, held⟩
      · rw [same, deliver_cons, effect, deliver_nil]
      · rw [held, deliver_atRest (holdRun_inactive u cause (some m))]
    rw [if_pos claimed, held]
    refine ⟨work.holdTaken (holdRun_taken active cause (some m)), ?_⟩
    have noticed := holdRun_noticed active cause (some m)
    rw [run] at noticed
    exact noticed
  · have effect : takeReport u (.linkChanged m link) = deferFault u cause m := by
      unfold takeReport reportEffect
      rw [run, phase]
      simp [hc, deferIf]
    rw [if_pos claimed, deliver_append]
    rcases delivered with same | ⟨cueing, -⟩
    · rw [same, deliver_cons, effect, deliver_nil]
      exact work.faultDeferred (deferFault_spec u cause m).1
    · rw [run, phase] at cueing; cases cueing
  · rw [if_neg (by rw [unclaimed]; decide), List.append_nil]
    rcases delivered with same | ⟨cueing, -⟩
    · rw [same]; exact run
    · rw [run, phase] at cueing; cases cueing
  · exact deliver_atRest (by rw [run]; exact rest) _

/-! ### A flush, and a change of link state (R79, R81, R94) -/

/-- Work on one machine's locate: it touches no port, and the locate goes on or ends. -/
structure LocateWork (s t : State) (m : MachineId) : Prop where
  work : MachinesWork s t
  ports : t.ports = s.ports
  others : ∀ n, n ≠ m → t.machine n = s.machine n
  motion : MotionHeld (s.machine m) (t.machine m)

theorem LocateWork.refl (s : State) (m : MachineId) : LocateWork s s m := ⟨.refl s, rfl, fun _ _ => rfl, .refl _⟩

theorem LocateWork.trans {s t u : State} {m : MachineId} (h : LocateWork s t m) (k : LocateWork t u m) : LocateWork s u m :=
  ⟨h.work.trans k.work, k.ports.trans h.ports, fun n hn => (k.others n hn).trans (h.others n hn), h.motion.trans k.motion⟩

theorem reportLocateFailure_ports (s : State) (m : MachineId) (l : Locate) (target : Label) (reason : LocateReason) :
    (reportLocateFailure s m l target reason).1.ports = s.ports := by
  unfold reportLocateFailure
  split <;> rfl

theorem failLocate_work (s : State) (m : MachineId) (reason : LocateReason) : LocateWork s (failLocate s m reason).1 m := by
  refine ⟨.failLocate s m reason, ?_, fun n hn => ?_, (failLocate_units s m reason).motion m⟩
  · unfold failLocate
    split
    · rw [reportLocateFailure_ports, changeMachine_ports]
    · rfl
  · unfold failLocate
    split
    · rw [reportLocateFailure_machine, changeMachine_machine_other _ _ hn]
    · rfl

theorem reportLocateFailure_reports {s : State} {m : MachineId} {l : Locate} {target : Label} {reason : LocateReason}
    {r : RunReport} (h : r ∈ (reportLocateFailure s m l target reason).2) : r = .locateFailed m reason := by
  unfold reportLocateFailure at h
  split at h
  · cases h
  · exact List.mem_singleton.1 h

theorem failLocate_reports {s : State} {m : MachineId} {reason : LocateReason} {r : RunReport}
    (h : r ∈ (failLocate s m reason).2) : r = .locateFailed m reason := by
  unfold failLocate at h
  split at h
  · exact reportLocateFailure_reports h
  · cases h

/-- A flush empties the queue; the machine's locate goes on or ends LOST. -/
theorem flushLost_work (s : State) (m : MachineId) (link : LinkState) :
    LocateWork (s.setPort m (s.port m).flushed) (flushLost s m).1 m ∧ LinkReports m link (flushLost s m).2 := by
  unfold flushLost
  generalize s.setPort m (s.port m).flushed = u
  have turns (l : List QueuedRequest) : ∀ acc : State × List RunReport, LocateWork u acc.1 m → LinkReports m link acc.2 →
      LocateWork u (l.foldl (fun acc q => if q.request.isLocate then
          ((failLocate acc.1 m .lost).1, acc.2 ++ (failLocate acc.1 m .lost).2) else acc) acc).1 m
        ∧ LinkReports m link (l.foldl (fun acc q => if q.request.isLocate then
          ((failLocate acc.1 m .lost).1, acc.2 ++ (failLocate acc.1 m .lost).2) else acc) acc).2 := by
    induction l with
    | nil => exact fun acc work reports => ⟨work, reports⟩
    | cons q l ih =>
      intro acc work reports
      rw [List.foldl_cons]
      split
      · exact ih _ (work.trans (failLocate_work acc.1 m .lost)) (reports.append fun r hr => .inl (failLocate_reports hr))
      · exact ih _ work reports
  exact turns _ (u, []) (.refl u m) (fun r hr => by cases hr)

/-! ### A change of link state (R94, R117) -/

theorem MachineRec.afterLink_claimed (x : MachineRec) (link : LinkState) : (x.afterLink link).claimed = x.claimed := by
  unfold MachineRec.afterLink
  split <;> rfl

/-- A LOCATING or PARKED machine of a port that goes OFFLINE or LOCAL goes FREE (R94). -/
theorem MachineRec.afterLink_down {x : MachineRec} {link : LinkState} {reason : LocateReason} (down : linkReason link = some reason) :
    MotionHeld x (x.afterLink link)
      ∧ (x.control = .locating ∨ x.control = .parked → (x.afterLink link).control = .free) := by
  unfold MachineRec.afterLink MotionHeld
  cases link with
  | absent | online => cases down
  | offline | localMode => cases control : x.control <;> simp [control]

/-- What the record, the ports and the reports are after a change of link state; `u` is the state that it leaves. -/
structure LinkChanged (s : State) (m : MachineId) (link : LinkState) (x : State × List RunReport) : Prop where
  work : MachinesWork s x.1
  others : OthersKept s x.1 m
  reports : ∃ rs, LinkReports m link rs ∧ x.2 = rs ++ if (s.machine m).claimed then [.linkChanged m link] else []

/-- The record, the port and the notice that a change of link state makes. -/
def linkReported (s : State) (m : MachineId) (link : LinkState) : State :=
  raiseMachineState ((s.setPort m { s.port m with link := link }).setMachine m ((s.machine m).afterLink link)) m

theorem linkReported_machine (s : State) (m : MachineId) (link : LinkState) :
    (linkReported s m link).machine m = (s.machine m).afterLink link := State.setMachine_machine _ m _

theorem linkReported_port (s : State) (m : MachineId) (link : LinkState) :
    (linkReported s m link).port m = { s.port m with link := link } := State.setPort_port s m _

theorem linkReported_others (s : State) (m : MachineId) (link : LinkState) : OthersKept s (linkReported s m link) m :=
  fun _ hn => ⟨State.setPort_port_other s _ hn, State.setMachine_machine_other _ _ hn⟩

theorem linkReported_work (s : State) (m : MachineId) (link : LinkState) : MachinesWork s (linkReported s m link) :=
  ((MachinesWork.setPort s m _).trans (.setMachine (MachineRec.afterLink_claimed _ link))).trans (.raiseNotice _ _)

/-- A port that goes OFFLINE or LOCAL: its link state, and its record as R94 has it. -/
theorem changeLink_down {s : State} {m : MachineId} {link : LinkState} {reason : LocateReason} (down : linkReason link = some reason) :
    LinkChanged s m link (changeLink s m link)
      ∧ (changeLink s m link).1.port m = { s.port m with link := link }
      ∧ (changeLink s m link).1.machine m = (s.machine m).afterLink link := by
  have stop (t : State) : stopIfAsserted t m link = t := by
    unfold stopIfAsserted
    cases link with
    | online => cases down
    | absent | offline | localMode => rfl
  have port := linkReported_port s m link
  have machine := linkReported_machine s m link
  have others := linkReported_others s m link
  have work := linkReported_work s m link
  have changed : changeLink s m link = (linkReported s m link, if (s.machine m).claimed then [.linkChanged m link] else [])
      ∨ ∃ l target, changeLink s m link
        = ((reportLocateFailure (linkReported s m link) m l target reason).1,
            (reportLocateFailure (linkReported s m link) m l target reason).2
              ++ if (s.machine m).claimed then [.linkChanged m link] else []) := by
    unfold changeLink
    rw [down]
    dsimp only
    split
    · rename_i l r _ _ hr
      cases hr
      rw [stop]
      exact .inr ⟨l, _, rfl⟩
    · rw [stop]
      exact .inl rfl
  generalize linkReported s m link = u at *
  rcases changed with changed | ⟨l, target, changed⟩ <;> rw [changed]
  · exact ⟨⟨work, others, [], (fun r hr => by cases hr), rfl⟩, port, machine⟩
  · refine ⟨⟨work.trans (.reportLocateFailure u m l target reason), fun n hn => ⟨?_, ?_⟩, _, fun r hr => .inr ⟨reason, down, ?_⟩, rfl⟩, ?_, ?_⟩
    · rw [reportLocateFailure_port]; exact (others n hn).1
    · rw [reportLocateFailure_machine]; exact (others n hn).2
    · exact reportLocateFailure_reports hr
    · rw [reportLocateFailure_port]; exact port
    · rw [reportLocateFailure_machine]; exact machine

/-- A port that comes ONLINE, at which STOP may be placed (R117). -/
theorem changeLink_online (s : State) (m : MachineId) :
    changeLink s m .online
        = ((if s.stopAsserted then tryStop (linkReported s m .online) m else linkReported s m .online),
            if (s.machine m).claimed then [.linkChanged m .online] else []) := by
  unfold changeLink
  dsimp only
  split
  · rename_i h
    cases h
  · rw [stopIfAsserted_cases]
    rfl

theorem MachineRec.afterLink_online (x : MachineRec) : x.afterLink .online = x := by
  unfold MachineRec.afterLink
  cases x.control <;> rfl

/-! ### A port goes OFFLINE or LOCAL (R79, R81) -/

/-- A port that goes down: `u` is the state when the Run Controller takes the reports, `t` after, and `p` the port. -/
structure WentDown (s u t : State) (m : MachineId) (cause : HoldCause) (p : Port) : Prop where
  lost : LinkLost s u t m cause
  work : MachinesWork s u
  others : OthersKept s u m
  port : u.port m = p
  motion : MotionHeld (s.machine m) (u.machine m)
  freed : (s.machine m).control = .locating ∨ (s.machine m).control = .parked → (u.machine m).control = .free

section down

variable {s u t : State} {m : MachineId} {cause : HoldCause} {p : Port}

/-- The Run Controller places nothing at a port that is not ONLINE. -/
theorem WentDown.port_after (h : WentDown s u t m cause p) (down : p.link ≠ .online) : t.port m = p := by
  have held := (h.lost.units.port m).offline
  rw [h.port] at held
  exact held down

theorem WentDown.free_after (h : WentDown s u t m cause p)
    (moving : (s.machine m).control = .locating ∨ (s.machine m).control = .parked) : (t.machine m).control = .free := by
  rcases h.lost.units.motion m with ⟨same, -⟩ | ⟨free, -⟩
  · rw [same]; exact h.freed moving
  · exact free

theorem WentDown.list (h : WentDown s u t m cause p) : listOf t = listOf s := by
  rw [h.lost.list]
  unfold listOf
  rw [h.work.only.store]

end down

/-- A change of link state that is reported after other reports of locates it ended. -/
theorem changeLink_wentDown {s v : State} {m : MachineId} {link : LinkState} {reason : LocateReason} {cause : HoldCause}
    (down : linkReason link = some reason) (hc : linkCause link = some cause) (work : MachinesWork s v) (others : OthersKept s v m)
    (motion : MotionHeld (s.machine m) (v.machine m)) {rs : List RunReport} (reports : LinkReports m link rs) :
    WentDown s (changeLink v m link).1 (deliver ((changeLink v m link).1, rs ++ (changeLink v m link).2)) m cause
      { v.port m with link := link } := by
  obtain ⟨⟨work', others', qs, reports', all⟩, port, machine⟩ := changeLink_down (s := v) (m := m) down
  obtain ⟨motion', freed⟩ := MachineRec.afterLink_down (x := v.machine m) down
  rw [all, ← List.append_assoc, work.claims m]
  refine ⟨deliver_linkLost hc (work.trans work') (reports.append reports'), work.trans work',
    fun n hn => ⟨(others' n hn).1.trans (others n hn).1, (others' n hn).2.trans (others n hn).2⟩, port, ?_, fun moving => ?_⟩
  · rw [machine]; exact motion.trans motion'
  · rw [machine]
    rcases motion with ⟨same, -⟩ | ⟨free, -⟩
    · exact freed (by rw [same]; exact moving)
    · rcases motion' with ⟨same, -⟩ | ⟨free', -⟩
      · rw [same]; exact free
      · exact free'

theorem setPort_othersKept (s : State) (m : MachineId) (p : Port) : OthersKept s (s.setPort m p) m :=
  fun _ hn => ⟨State.setPort_port_other s p hn, rfl⟩

theorem LocateWork.others_after {s t : State} {m : MachineId} {p : Port} (h : LocateWork (s.setPort m p) t m) :
    OthersKept s t m := fun n hn => by
  refine ⟨?_, h.others n hn⟩
  unfold State.port
  rw [h.ports]
  exact State.setPort_port_other s p hn

theorem LocateWork.port_after {s t : State} {m : MachineId} {p : Port} (h : LocateWork (s.setPort m p) t m) : t.port m = p := by
  unfold State.port
  rw [h.ports]
  exact State.setPort_port s m p

/-- A port goes LOCAL with its queue flushed (R79). -/
theorem goLocal_down (s : State) (m : MachineId) :
    ∃ u, WentDown s u (goLocal s m) m .machineLocal { (s.port m).flushed with link := .localMode } := by
  obtain ⟨flush, reports⟩ := flushLost_work s m .localMode
  have went := changeLink_wentDown (link := .localMode) rfl rfl ((MachinesWork.setPort s m _).trans flush.work) flush.others_after
    flush.motion reports
  rw [flush.port_after] at went
  exact ⟨_, went⟩

/-- A port goes OFFLINE with its queue flushed and the recovery count loaded (R81). -/
theorem goOffline_down (s : State) (m : MachineId) :
    ∃ u, WentDown s u (goOffline s m) m .machineOffline
      { (s.port m).flushed with recovery := Config.recoveryFields, link := .offline } := by
  obtain ⟨flush, reports⟩ := flushLost_work s m .offline
  have others : OthersKept s ((flushLost s m).1.setPort m { (flushLost s m).1.port m with recovery := Config.recoveryFields }) m :=
    fun n hn => ⟨(State.setPort_port_other _ _ hn).trans (flush.others_after n hn).1, (flush.others_after n hn).2⟩
  have went := changeLink_wentDown (link := .offline) rfl rfl
    (((MachinesWork.setPort s m _).trans flush.work).trans (.setPort _ m { (flushLost s m).1.port m with recovery := Config.recoveryFields }))
    others flush.motion reports
  rw [State.setPort_port] at went
  have port : ({ ({ (flushLost s m).1.port m with recovery := Config.recoveryFields } : Port) with link := .offline } : Port)
      = { (s.port m).flushed with recovery := Config.recoveryFields, link := .offline } := by rw [flush.port_after]
  rw [port] at went
  exact ⟨_, went⟩

end Sys2Proof.Machine
end

section
/-! The statements on the faults of a deck link (R75, R76, R78 to R82): exchanges that fail, unsolicited characters, the fault
limit, and the NAKs. -/

namespace Sys2Proof.Machine

/-! ### An exchange that fails (R80) -/

theorem countsFaults_of {s : State} {m : MachineId} (h : s.link m = .online ∨ s.link m = .localMode) : countsFaults s m = true := by
  unfold countsFaults
  rcases h with h | h <;> rw [h]

/-- The port once its failed exchange is counted. -/
def Port.failed (p : Port) : Port := { p.afterFailure.withProgress .failed with errors := p.errors + 1 }

theorem failExchange_counted {s : State} {m : MachineId} (h : s.link m = .online ∨ s.link m = .localMode) :
    failExchange s m
      = compareErrors (deliver (s.setPort m (s.port m).failed, (s.port m).failureReports)) m := by
  unfold failExchange
  rw [if_pos (countsFaults_of h)]
  rfl

/-- The exchange has the head of the queue on its line, and that is an EDIT ON. -/
def Port.EditOnWaits (p : Port) (x : Exchange) : Prop :=
  x.onLine = true ∧ ∃ e rest, p.queue = e :: rest ∧ e.request.isEditOn = true

theorem Port.onLineRequest_some {p : Port} {x : Exchange} {e : QueuedRequest} {rest : List QueuedRequest}
    (exchange : p.exchange = some x) (onLine : x.onLine = true) (queue : p.queue = e :: rest) : p.onLineRequest = some e := by
  simp [Port.onLineRequest, Port.lineHead, Port.headOnLine, exchange, onLine, queue]

theorem Port.onLineRequest_none {p : Port} {x : Exchange} (exchange : p.exchange = some x) (off : x.onLine = false) :
    p.onLineRequest = none := by
  simp [Port.onLineRequest, Port.lineHead, Port.headOnLine, exchange, off]

/-- A failure with no EDIT ON on the line leaves the queue as it is and reports nothing. -/
theorem Port.failed_stays {p : Port} {x : Exchange} (exchange : p.exchange = some x) (stays : ¬ p.EditOnWaits x) :
    p.failed = { p with errors := p.errors + 1, exchange := some { x with onLine := false, progress := .failed } }
      ∧ p.failureReports = [] := by
  have request : p.onLineRequest = none ∨ ∃ q, p.onLineRequest = some q ∧ q.request.isEditOn = false := by
    cases onLine : x.onLine with
    | false => exact .inl (Port.onLineRequest_none exchange onLine)
    | true =>
      cases queue : p.queue with
      | nil => exact .inl (by simp [Port.onLineRequest, Port.lineHead, queue])
      | cons e rest =>
        exact .inr ⟨e, Port.onLineRequest_some exchange onLine queue,
          Bool.eq_false_iff.2 fun edit => stays ⟨onLine, e, rest, queue, edit⟩⟩
  unfold Port.failed Port.afterFailure Port.failureReports
  rcases request with none | ⟨q, some, other⟩
  · rw [none]
    simp [Port.offLine, Port.withProgress, exchange]
  · rw [some]
    simp [Port.offLine, Port.withProgress, exchange, other]

/-- A failure with an EDIT ON on the line removes it and reports it. -/
theorem Port.failed_editOn {p : Port} {x : Exchange} {e : QueuedRequest} {rest : List QueuedRequest}
    (exchange : p.exchange = some x) (onLine : x.onLine = true) (queue : p.queue = e :: rest) (edit : e.request.isEditOn = true) :
    p.failed = { p with
        errors := p.errors + 1, queue := rest, exchange := some { x with onLine := false, progress := .failed } }
      ∧ p.failureReports = [.editOnFailed e.event] := by
  unfold Port.failed Port.afterFailure Port.failureReports
  rw [Port.onLineRequest_some exchange onLine queue]
  simp [Port.removeOnLine, Port.headOnLine, Port.offLine, Port.withProgress, exchange, onLine, queue, edit]

/-- The phase and the event in which the run minds the loss of an EDIT ON (R130). -/
def RunMinds (s : State) (event : Option Nat) : Prop :=
  (s.run.phase = .editing ∨ s.run.phase = .postroll) ∧ event = s.run.current

theorem RunMinds.active {s : State} {event : Option Nat} (h : RunMinds s event) : s.run.phase.active = true := by
  rcases h.1 with p | p <;> rw [p] <;> rfl

theorem takeReport_editOn {s : State} {event : Option Nat} (h : RunMinds s event) :
    takeReport s (.editOnFailed event) = holdRun s .editCommandFailed s.recorder := by
  obtain ⟨phase, current⟩ := h
  unfold takeReport reportEffect
  rcases phase with p | p <;> rw [p] <;> simp [current]

theorem takeReport_editOn_other {s : State} {event : Option Nat} (h : ¬ RunMinds s event) :
    takeReport s (.editOnFailed event) = s := by
  unfold takeReport reportEffect
  cases phase : s.run.phase with
  | idle | cueing | rolling | held => rfl
  | editing => dsimp only; rw [if_neg fun same => h ⟨.inl phase, same⟩]
  | postroll => dsimp only; rw [if_neg fun same => h ⟨.inr phase, same⟩]

theorem compareErrors_below {s : State} {m : MachineId} (h : (s.port m).errors < (s.machine m).params.faultLimit) :
    compareErrors s m = s := by
  unfold compareErrors limitReached
  rw [decide_eq_false (Nat.not_le.2 h), Bool.and_false]
  rfl

theorem compareErrors_reached {s : State} {m : MachineId} (link : s.link m = .online ∨ s.link m = .localMode)
    (h : (s.machine m).params.faultLimit ≤ (s.port m).errors) : compareErrors s m = goOffline s m := by
  unfold compareErrors limitReached
  rw [countsFaults_of link]
  simp [h]

/-- A failure below the fault limit: the port counts it, and the run takes the report of a lost EDIT ON. -/
theorem failExchange_below {s : State} {m : MachineId} (link : s.link m = .online ∨ s.link m = .localMode)
    (below : (s.port m).errors + 1 < (s.machine m).params.faultLimit) :
    failExchange s m = deliver (s.setPort m (s.port m).failed, (s.port m).failureReports) := by
  rw [failExchange_counted link]
  have params := (deliver_step (s.setPort m (s.port m).failed, (s.port m).failureReports)).params m
  have port := (deliver_units (s.setPort m (s.port m).failed, (s.port m).failureReports)).port m
  refine compareErrors_below ?_
  rw [params, port.frame]
  show ((s.setPort m (s.port m).failed).port m).errors < _
  rw [State.setPort_port]
  exact below

theorem openField_counted {s : State} {m : MachineId} (h : s.link m = .online ∨ s.link m = .localMode) :
    openField s m = s.setPort m ((s.port m).openExchange (modeOf s m) (fieldCount s)) := by
  unfold openField
  rw [if_pos (countsFaults_of h)]

/-- A port once written opens its exchange with what was written. -/
theorem openField_setPort {s : State} {m : MachineId} {p : Port} (h : p.link = .online ∨ p.link = .localMode) :
    openField (s.setPort m p) m = s.setPort m (p.openExchange (modeOf s m) (fieldCount s)) := by
  rw [openField_counted (by rw [State.setPort_link]; exact h), State.setPort_port]
  unfold State.setPort
  rw [Bank.set_set]
  rfl

/-- A port that takes a field start while its exchange waits: the failure, and then the field's new exchange (R75). -/
theorem portField_waiting {s : State} {m : MachineId} (link : s.link m = .online ∨ s.link m = .localMode)
    (waits : (s.port m).waiting = true) : portField s m = openField (failExchange s m) m := by
  unfold portField
  rcases link with h | h <;> rw [h] <;> exact if_pos waits

/-- Opening an exchange looks at the link state and the queue alone. -/
theorem Port.openExchange_congr (p : Port) (x : Option Exchange) (mode : LabelMode) (n : Nat) :
    ({ p with exchange := x } : Port).openExchange mode n = p.openExchange mode n := by
  unfold Port.openExchange
  dsimp only

theorem Port.waiting_of {p : Port} {x : Exchange} (exchange : p.exchange = some x) (waits : x.waiting = true) :
    p.waiting = true := by
  unfold Port.waiting
  rw [exchange]
  exact waits

theorem Port.quiet_of {p : Port} {x : Exchange} (exchange : p.exchange = some x) :
    p.quiet = (x.progress == .completed false) := by
  unfold Port.quiet
  rw [exchange]

/-- The state after a failure that stays below the fault limit, as the run minds an EDIT ON that it lost or not. -/
theorem failExchange_lost {s : State} {m : MachineId} {x : Exchange} {e : QueuedRequest} {rest : List QueuedRequest}
    (link : s.link m = .online ∨ s.link m = .localMode) (below : (s.port m).errors + 1 < (s.machine m).params.faultLimit)
    (exchange : (s.port m).exchange = some x) (onLine : x.onLine = true) (queue : (s.port m).queue = e :: rest)
    (edit : e.request.isEditOn = true) :
    failExchange s m = takeReport (s.setPort m { s.port m with
        errors := (s.port m).errors + 1, queue := rest, exchange := some { x with onLine := false, progress := .failed } })
      (.editOnFailed e.event) := by
  obtain ⟨failed, reports⟩ := Port.failed_editOn exchange onLine queue edit
  rw [failExchange_below link below, failed, reports]
  rfl

theorem failExchange_stays {s : State} {m : MachineId} {x : Exchange} (link : s.link m = .online ∨ s.link m = .localMode)
    (below : (s.port m).errors + 1 < (s.machine m).params.faultLimit) (exchange : (s.port m).exchange = some x)
    (stays : ¬ (s.port m).EditOnWaits x) :
    failExchange s m = s.setPort m { s.port m with
      errors := (s.port m).errors + 1, exchange := some { x with onLine := false, progress := .failed } } := by
  obtain ⟨failed, reports⟩ := Port.failed_stays exchange stays
  rw [failExchange_below link below, failed, reports]
  rfl

/-- A lost EDIT ON that the run minds holds it, and the count stands at the port. -/
theorem failExchange_minded {s : State} {m : MachineId} {x : Exchange} {e : QueuedRequest} {rest : List QueuedRequest}
    (link : s.link m = .online ∨ s.link m = .localMode) (below : (s.port m).errors + 1 < (s.machine m).params.faultLimit)
    (exchange : (s.port m).exchange = some x) (onLine : x.onLine = true) (queue : (s.port m).queue = e :: rest)
    (edit : e.request.isEditOn = true) (minds : RunMinds s e.event) :
    (failExchange s m).run.phase = .held ∧ (failExchange s m).run.holdCause = some .editCommandFailed
      ∧ ((failExchange s m).port m).errors = (s.port m).errors + 1 ∧ (failExchange s m).link m = s.link m := by
  rw [failExchange_lost link below exchange onLine queue edit]
  generalize hp : ({ s.port m with errors := (s.port m).errors + 1, queue := rest, exchange := some { x with onLine := false, progress := .failed } } : Port) = p
  have errors : p.errors = (s.port m).errors + 1 := by rw [← hp]
  have same : p.link = (s.port m).link := by rw [← hp]
  rw [takeReport_editOn (s := s.setPort m p) minds]
  have run := holdRun_run (s := s.setPort m p) minds.active .editCommandFailed s.recorder
  have held := ((holdRun_units (s.setPort m p) .editCommandFailed s.recorder).port m).frame
  rw [State.setPort_port] at held
  refine ⟨run.1, run.2.1, ?_, ?_⟩
  · exact (congrArg Port.errors held).trans errors
  · exact (congrArg Port.link held).trans same

/-- Settles O35: the failure by kind, with the report of a lost EDIT ON, and the counts of unsolicited characters. -/
theorem exchangeFaultsAreCounted : Obligations.ExchangeFaultsAreCounted := by
  intro s m x link exchange below p w editOnWaits runMinds
  refine ⟨fun due waits => ?timeout, fun chars faulty fails => ?check, fun quiet => ?unsolicited, fun heard => ?again,
    fun rx c listening incomplete => ?parity⟩
  case timeout =>
    have exec : exec (.exchangeTimeout m) s = .next (openField (failExchange w m) m) := by
      have waiting := Port.waiting_of exchange waits
      have taken : Sys2Proof.Machine.exec (.exchangeTimeout m) s = .next (takeField s (.port m)) :=
        if_pos (by simp only [portDue, due, waiting, Bool.and_self])
      rw [taken, takeField_waiting due]
      exact congrArg Host.Outcome.next (portField_waiting (s := w) link waiting)
    refine ⟨fun stays => ?_, fun e rest onLine queue edit => ⟨fun ignores => ?_, fun minds => ?_⟩⟩
    · rw [exec, failExchange_stays (s := w) link below exchange stays]
      refine congrArg Host.Outcome.next ((openField_setPort (by exact link)).trans ?_)
      exact congrArg (w.setPort m) (Port.openExchange_congr p _ _ _)
    · rw [exec, failExchange_lost (s := w) link below exchange onLine queue edit]
      refine congrArg Host.Outcome.next ((congrArg (openField · m) (takeReport_editOn_other (by exact ignores))).trans ?_)
      refine (openField_setPort (by exact link)).trans ?_
      exact congrArg (w.setPort m) (Port.openExchange_congr { p with queue := rest } _ _ _)
    · obtain ⟨phase, cause, errors, same⟩ := failExchange_minded (s := w) link below exchange onLine queue edit minds
      refine ⟨_, exec, ?_⟩
      rw [openField_counted (by rw [same]; exact link), State.setPort_port]
      refine ⟨phase, cause, Eq.trans ?_ errors⟩
      unfold Port.openExchange
      split <;> rfl
  case check =>
    have exec : exec (.checkFailure m chars faulty) s = .next (failExchange s m) := if_pos fails
    refine ⟨fun stays => ?_, fun e rest onLine queue edit => ⟨fun ignores => ?_, fun minds => ?_⟩⟩
    · rw [exec, failExchange_stays link below exchange stays]
    · rw [exec, failExchange_lost link below exchange onLine queue edit]
      exact congrArg Host.Outcome.next (takeReport_editOn_other ignores)
    · obtain ⟨phase, cause, errors, -⟩ := failExchange_minded link below exchange onLine queue edit minds
      exact ⟨_, exec, phase, cause, errors⟩
  case unsolicited =>
    have exec : exec (.unsolicitedCharacter m) s = .next (countUnsolicited s m) :=
      if_pos (by rw [countsFaults_of link, Port.quiet_of exchange, quiet]; rfl)
    rw [exec, countUnsolicited, Port.withProgress_of exchange, compareErrors_below]
    rw [State.setPort_port]
    exact below
  case again =>
    refine if_neg ?_
    rw [Port.quiet_of exchange, heard]
    simp
  case parity =>
    have received : replyClass s m [] = some .incomplete := by
      rw [replyClass, Port.received_of exchange listening]
      show some (classify (rx ++ [])) = _
      rw [List.append_nil, incomplete]
    unfold checkFails
    rw [show ([c] : List Byte).dropLast = [] from rfl, received]
    rfl

/-! ### The fault limit (R81) -/

/-- What a port taken OFFLINE by its fault limit leaves; `lost` says that the failed exchange lost an EDIT ON of the current
event. -/
structure WentOffline (s t : State) (m : MachineId) (lost : Prop) : Prop where
  link : t.link m = .offline
  queue : (t.port m).queue = []
  recovery : (t.port m).recovery = 32
  errors : (t.port m).errors = (s.port m).errors + 1
  free : (s.machine m).control = .locating ∨ (s.machine m).control = .parked → (t.machine m).control = .free
  holds : (s.machine m).claimed = true → (s.run.phase = .cueing ∨ s.run.phase = .rolling ∨ s.run.phase = .editing) →
    t.run.phase = .held
  lostEditOn : s.run.phase = .postroll → lost → t.run.phase = .held ∧ t.run.holdCause = some .editCommandFailed
  defers : s.run.phase = .postroll → ¬ lost → (s.machine m).claimed = true → FaultDeferred s t .machineOffline m
  goes : s.run.phase = .postroll → ¬ lost → (s.machine m).claimed = false → t.run = s.run
  rests : s.run.phase = .idle ∨ s.run.phase = .held → OthersKept s t m ∧ t.run = s.run
    ∧ t = { s with ports := t.ports, machines := t.machines, console := t.console, waiting := t.waiting }
  list : listOf t = listOf s

theorem WentOffline.of_lost {s t : State} {m : MachineId} {lost lost' : Prop} (h : WentOffline s t m lost) (same : lost' ↔ lost) :
    WentOffline s t m lost' := by rwa [propext same]

/-- A port goes OFFLINE with a count that has been written, and no report before. -/
theorem goOffline_counted {s : State} {m : MachineId} {p : Port} (errors : p.errors = (s.port m).errors + 1) {lost : Prop}
    (kept : s.run.phase = .postroll → ¬ lost) : WentOffline s (goOffline (s.setPort m p) m) m lost := by
  obtain ⟨u, down⟩ := goOffline_down (s.setPort m p) m
  have work := MachinesWork.setPort s m p
  have port := down.port_after (by simp)
  rw [State.setPort_port] at port
  have inactive : s.run.phase = .idle ∨ s.run.phase = .held → s.run.phase.active = false := by
    rintro (h | h) <;> rw [h] <;> rfl
  refine ⟨congrArg Port.link port, congrArg Port.queue port, congrArg Port.recovery port, ?_, down.free_after, fun claimed phase => ?_,
    fun phase h => absurd h (kept phase), fun phase _ claimed => ?_, fun phase _ unclaimed => down.lost.goes unclaimed phase,
    fun rest => ?_, down.list⟩
  · rw [port]; exact errors
  · exact (down.lost.holds claimed phase).1.1.1
  · exact work.faultDeferred (down.lost.defers claimed phase)
  · rw [down.lost.rests (inactive rest)]
    refine ⟨fun n hn => ⟨(down.others n hn).1.trans (State.setPort_port_other s p hn), (down.others n hn).2⟩, down.work.only.run, ?_⟩
    have frame := down.work.only.1
    rw [frame]
    rfl

/-- A motion that has ended stays ended. -/
theorem MotionHeld.free {x y : MachineRec} (h : MotionHeld x y) (free : x.control = .free) : y.control = .free := by
  rcases h with ⟨same, -⟩ | ⟨ended, -⟩
  · rw [same]; exact free
  · exact ended

theorem WentDown.free_stays {s u t : State} {m : MachineId} {cause : HoldCause} {p : Port} (h : WentDown s u t m cause p)
    (free : (s.machine m).control = .free) : (t.machine m).control = .free :=
  (h.lost.units.motion m).free (h.motion.free free)

/-- A port goes OFFLINE after the run was held for the EDIT ON that the failed exchange lost. -/
theorem goOffline_heldBefore {s : State} {m : MachineId} {p : Port} (errors : p.errors = (s.port m).errors + 1) {lost : Prop}
    {event : Option Nat} (minds : RunMinds s event) (isLost : s.run.phase = .postroll → lost) :
    WentOffline s (goOffline (holdRun (s.setPort m p) .editCommandFailed s.recorder) m) m lost := by
  have run := holdRun_run (s := s.setPort m p) minds.active .editCommandFailed s.recorder
  have units := holdRun_units (s.setPort m p) .editCommandFailed s.recorder
  have list := (holdRun_step (s.setPort m p) .editCommandFailed s.recorder).list
  generalize holdRun (s.setPort m p) .editCommandFailed s.recorder = v at *
  obtain ⟨u, down⟩ := goOffline_down v m
  have port := down.port_after (by simp)
  have counted := congrArg Port.errors (units.port m).frame
  rw [State.setPort_port] at counted
  have after : (goOffline v m).run = v.run := by
    rw [down.lost.rests (by rw [run.1]; rfl)]
    exact down.work.only.run
  refine ⟨congrArg Port.link port, congrArg Port.queue port, congrArg Port.recovery port, ?_, fun moving => ?_, fun _ _ => ?_,
    fun _ _ => ?_, fun phase h => absurd (isLost phase) h, fun phase h => absurd (isLost phase) h, fun rest => ?_, ?_⟩
  · rw [port]; exact counted.trans errors
  · rcases units.motion m with ⟨same, -⟩ | ⟨free, -⟩
    · exact down.free_after (by rw [same]; exact moving)
    · exact down.free_stays free
  · rw [after]; exact run.1
  · rw [after]; exact ⟨run.1, run.2.1⟩
  · obtain ⟨active | active, -⟩ := minds <;> rw [active] at rest <;> rcases rest with h | h <;> cases h
  · rw [down.list]; exact list

/-- A failed exchange that reaches the fault limit. -/
theorem failExchange_offline {s : State} {m : MachineId} {x : Exchange} (link : s.link m = .online ∨ s.link m = .localMode)
    (exchange : (s.port m).exchange = some x) (limit : (s.machine m).params.faultLimit ≤ (s.port m).errors + 1) :
    WentOffline s (failExchange s m) m
      (x.onLine = true ∧ ∃ e rest, (s.port m).queue = e :: rest ∧ e.request.isEditOn = true ∧ e.event = s.run.current) := by
  rw [failExchange_counted link]
  have reaches {t : State} (params : (t.machine m).params = (s.machine m).params) (same : t.link m = s.link m)
      (errors : (t.port m).errors = (s.port m).errors + 1) : compareErrors t m = goOffline t m :=
    compareErrors_reached (by rw [same]; exact link) (by rw [params, errors]; exact limit)
  by_cases waits : (s.port m).EditOnWaits x
  · obtain ⟨onLine, e, rest, queue, edit⟩ := waits
    obtain ⟨failed, reports⟩ := Port.failed_editOn exchange onLine queue edit
    have errors : (s.port m).failed.errors = (s.port m).errors + 1 := rfl
    have links : (s.port m).failed.link = (s.port m).link := by rw [failed]
    rw [reports]
    generalize (s.port m).failed = p at *
    show WentOffline s (compareErrors (takeReport (s.setPort m p) (.editOnFailed e.event)) m) m _
    by_cases minds : RunMinds s e.event
    · have step := holdRun_step (s.setPort m p) .editCommandFailed s.recorder
      have held := (holdRun_units (s.setPort m p) .editCommandFailed s.recorder).port m
      have frame := held.frame
      rw [State.setPort_port] at frame
      rw [takeReport_editOn (s := s.setPort m p) minds]
      rw [State.setPort_recorder, reaches (step.params m) ((congrArg Port.link frame).trans links) ((congrArg Port.errors frame).trans errors)]
      exact goOffline_heldBefore errors minds fun _ => ⟨onLine, e, rest, queue, edit, minds.2⟩
    · rw [takeReport_editOn_other (s := s.setPort m p) minds,
        reaches (t := s.setPort m _) rfl (by rw [State.setPort_link]; exact links) (by rw [State.setPort_port]; exact errors)]
      refine goOffline_counted errors fun phase lost => minds ⟨.inr phase, ?_⟩
      obtain ⟨-, e', rest', queue', -, current⟩ := lost
      rw [queue] at queue'
      injection queue' with same
      rw [same]
      exact current
  · obtain ⟨failed, reports⟩ := Port.failed_stays exchange waits
    have errors : (s.port m).failed.errors = (s.port m).errors + 1 := rfl
    have links : (s.port m).failed.link = (s.port m).link := by rw [failed]
    rw [reports, deliver_nil,
      reaches (t := s.setPort m _) rfl (by rw [State.setPort_link]; exact links) (by rw [State.setPort_port]; exact errors)]
    refine goOffline_counted errors fun _ lost => waits ?_
    obtain ⟨onLine, e, rest, queue, edit, -⟩ := lost
    exact ⟨onLine, e, rest, queue, edit⟩

/-- An OFFLINE port opens no exchange, and the rest of what its failure left stands. -/
theorem WentOffline.openField {s t : State} {m : MachineId} {lost : Prop} {waiting : List Receiver}
    (h : WentOffline { s with waiting := waiting } t m lost) :
    WentOffline s (openField t m) m lost ∧ ((Machine.openField t m).port m).exchange = none := by
  have offline : countsFaults t m = false := by unfold countsFaults; rw [h.link]
  have opened : Machine.openField t m = t.setPort m { t.port m with exchange := none } := by
    unfold Machine.openField
    rw [offline]
    rfl
  rw [opened]
  have port : (t.setPort m { t.port m with exchange := none }).port m = { t.port m with exchange := none } := State.setPort_port ..
  refine ⟨⟨?_, ?_, ?_, ?_, h.free, h.holds, h.lostEditOn, h.defers, h.goes, fun rest => ?_, h.list⟩, by rw [port]⟩
  · rw [State.setPort_link]; exact h.link
  · rw [port]; exact h.queue
  · rw [port]; exact h.recovery
  · rw [port]; exact h.errors
  · obtain ⟨others, run, frame⟩ := h.rests rest
    refine ⟨fun n hn => ⟨(State.setPort_port_other t _ hn).trans (others n hn).1, (others n hn).2⟩, run, ?_⟩
    rw [State.setPort, frame]

/-- Settles O36: the three errors that can reach the limit, each counted and then the port taken OFFLINE. -/
theorem faultLimitTakesPortOffline : Obligations.FaultLimitTakesPortOffline := by
  intro s m x cause link exchange limit occurs
  have next : nextErrorOffline s m = true := by
    unfold nextErrorOffline limitReached
    rw [countsFaults_of link]
    simpa using limit
  have found : ∃ t, exec (.portOffline m cause) s = .next t ∧ (cause = .timeout → (t.port m).exchange = none)
      ∧ WentOffline s t m (cause ≠ .unsolicited ∧ x.onLine = true
        ∧ ∃ e rest, (s.port m).queue = e :: rest ∧ e.request.isEditOn = true ∧ e.event = s.run.current) := by
    rcases occurs with ⟨rfl, due, waits⟩ | ⟨chars, faulty, rfl, fails⟩ | ⟨rfl, quiet⟩
    · have waiting := Port.waiting_of exchange waits
      have taken : exec (.portOffline m .timeout) s = .next (takeField s (.port m)) :=
        (if_pos next).trans (if_pos (by simp only [portDue, due, waiting, Bool.and_self]))
      have went := (failExchange_offline (s := { s with waiting := s.waiting.erase (.port m) }) link exchange limit).openField
      refine ⟨_, ?_, fun _ => went.2, ?_⟩
      · rw [taken, takeField_waiting due]
        exact congrArg Host.Outcome.next
          (portField_waiting (s := { s with waiting := s.waiting.erase (.port m) }) link waiting)
      · exact went.1.of_lost (and_iff_right (by decide))
    · refine ⟨failExchange s m, (if_pos next).trans (if_pos fails), (fun h => by cases h), ?_⟩
      exact (failExchange_offline link exchange limit).of_lost (and_iff_right (by simp))
    · have quiets : (s.port m).quiet = true := by rw [Port.quiet_of exchange, quiet]; rfl
      refine ⟨countUnsolicited s m, (if_pos next).trans (if_pos quiets), (fun h => by cases h), ?_⟩
      unfold countUnsolicited
      rw [Port.withProgress_of exchange, compareErrors_reached (by rw [State.setPort_link]; exact link) (by rw [State.setPort_port]; exact limit)]
      exact goOffline_counted rfl fun _ lost => lost.1 rfl
  obtain ⟨t, exec, none, went⟩ := found
  exact ⟨t, exec, went.link, went.queue, went.recovery, went.errors, none, went.free, went.holds,
    fun phase => ⟨went.lostEditOn phase, went.defers phase, went.goes phase⟩, went.rests, went.list⟩

end Sys2Proof.Machine
end

section
/-! The statement on the NAKs (R78, R79, R82, R104, R126, R130, R132). -/

namespace Sys2Proof.Machine

theorem State.setPort_twice (s : State) (m : MachineId) (p q : Port) : (s.setPort m p).setPort m q = s.setPort m q := by
  unfold State.setPort
  rw [Bank.set_set]

/-! ### The exchange a NAK completes -/

theorem Port.completed_of {p : Port} {x : Exchange} (exchange : p.exchange = some x) :
    p.completed = { p with errors := 0, exchange := some { x with progress := .completed false } } := by
  simp [Port.completed, Port.withProgress, exchange]

/-- The port with its exchange completed and the head of the queue off the line. -/
def Port.freed (p : Port) (x : Exchange) : Port :=
  { p with errors := 0, exchange := some { x with progress := .completed false, onLine := false } }

theorem Port.completed_offLine {p : Port} {x : Exchange} (exchange : p.exchange = some x) : p.completed.offLine = p.freed x := by
  rw [Port.completed_of exchange]
  rfl

theorem Port.completed_onLineRequest (p : Port) : p.completed.onLineRequest = p.onLineRequest := by
  unfold Port.onLineRequest Port.lineHead
  rw [Port.completed_headOnLine]
  rfl

theorem Port.completed_removeOnLine {p : Port} {x : Exchange} {e : QueuedRequest} {rest : List QueuedRequest}
    (exchange : p.exchange = some x) (onLine : x.onLine = true) (queue : p.queue = e :: rest) :
    p.completed.removeOnLine = { p.freed x with queue := rest } := by
  rw [Port.completed_of exchange]
  simp [Port.removeOnLine, Port.headOnLine, onLine, queue, Port.offLine, Port.freed]

section refused

variable {s : State} {m : MachineId} {x : Exchange} {e : QueuedRequest} {rest : List QueuedRequest}

theorem completed_request (exchange : (s.port m).exchange = some x) (onLine : x.onLine = true) (queue : (s.port m).queue = e :: rest) :
    ((s.setPort m (s.port m).completed).port m).onLineRequest = some e := by
  rw [State.setPort_port, Port.completed_onLineRequest, Port.onLineRequest_some exchange onLine queue]

theorem completed_removed (exchange : (s.port m).exchange = some x) (onLine : x.onLine = true) (queue : (s.port m).queue = e :: rest) :
    (s.setPort m (s.port m).completed).setPort m ((s.setPort m (s.port m).completed).port m).removeOnLine
      = s.setPort m { (s.port m).freed x with queue := rest } := by
  rw [State.setPort_twice, State.setPort_port, Port.completed_removeOnLine exchange onLine queue]

/-- A refused EDIT OFF stays, off the line (R78). -/
theorem refuseOnLine_editOff (exchange : (s.port m).exchange = some x) (onLine : x.onLine = true)
    (queue : (s.port m).queue = e :: rest) {tracks : TrackSet} (kind : e.request = .editOff tracks) :
    refuseOnLine (s.setPort m (s.port m).completed) m = (s.setPort m ((s.port m).freed x), []) := by
  unfold refuseOnLine
  rw [completed_request exchange onLine queue]
  dsimp only
  rw [kind]
  dsimp only
  rw [State.setPort_twice, State.setPort_port, Port.completed_offLine exchange]

/-- A refused EDIT ON is removed and reported. -/
theorem refuseOnLine_editOn (exchange : (s.port m).exchange = some x) (onLine : x.onLine = true)
    (queue : (s.port m).queue = e :: rest) {tracks : TrackSet} (kind : e.request = .editOn tracks) :
    refuseOnLine (s.setPort m (s.port m).completed) m
      = (s.setPort m { (s.port m).freed x with queue := rest }, [.editOnFailed e.event]) := by
  unfold refuseOnLine
  rw [completed_request exchange onLine queue]
  dsimp only
  rw [kind]
  dsimp only
  rw [completed_removed exchange onLine queue]

/-- A refused LOCATE is removed, and its locate fails. -/
theorem refuseOnLine_locate (exchange : (s.port m).exchange = some x) (onLine : x.onLine = true)
    (queue : (s.port m).queue = e :: rest) {target : Nat} (kind : e.request = .locate target) :
    refuseOnLine (s.setPort m (s.port m).completed) m
      = failLocate (s.setPort m { (s.port m).freed x with queue := rest }) m .refused := by
  unfold refuseOnLine
  rw [completed_request exchange onLine queue]
  dsimp only
  rw [kind]
  dsimp only
  rw [completed_removed exchange onLine queue]

/-- A refused STOP, PLAY or SHUTTLE is removed. -/
theorem refuseOnLine_transport (exchange : (s.port m).exchange = some x) (onLine : x.onLine = true)
    (queue : (s.port m).queue = e :: rest) (kind : e.request = .stop ∨ e.request = .play ∨ ∃ v, e.request = .shuttle v) :
    refuseOnLine (s.setPort m (s.port m).completed) m = (s.setPort m { (s.port m).freed x with queue := rest }, []) := by
  unfold refuseOnLine
  rw [completed_request exchange onLine queue]
  dsimp only
  rw [completed_removed exchange onLine queue]
  rcases kind with kind | kind | ⟨v, kind⟩ <;> simp only [kind]

theorem refuseOnLine_none (exchange : (s.port m).exchange = some x) (off : x.onLine = false) :
    refuseOnLine (s.setPort m (s.port m).completed) m = (s.setPort m (s.port m).completed, []) := by
  unfold refuseOnLine
  rw [State.setPort_port, Port.completed_onLineRequest, Port.onLineRequest_none exchange off]

end refused

theorem DeckRequest.isLocate_iff {r : DeckRequest} : r.isLocate = true ↔ ∃ target, r = .locate target := by
  cases r <;> simp [DeckRequest.isLocate]

theorem DeckRequest.isEditOn_iff {r : DeckRequest} : r.isEditOn = true ↔ ∃ tracks, r = .editOn tracks := by
  cases r <;> simp [DeckRequest.isEditOn]

theorem DeckRequest.isEditOff_iff {r : DeckRequest} : r.isEditOff = true ↔ ∃ tracks, r = .editOff tracks := by
  cases r <;> simp [DeckRequest.isEditOff]

/-! ### The failure of a locate, by its owner (R104) -/

section fail

variable {s : State} {m : MachineId} {l : Locate} (reason : LocateReason)

/-- The record of a machine whose locate has failed. -/
def locateGone (s : State) (m : MachineId) : State := changeMachine s m (fun x => { x with control := .free, locate := none })

theorem failLocate_console (control : (s.machine m).control = .locating) (locate : (s.machine m).locate = some l)
    (owner : l.owner = .console) :
    failLocate s m reason = (raiseNotice (locateGone s m) (.locateFailed m (machineLabel s m l.target) reason), []) := by
  unfold failLocate
  rw [control, locate]
  dsimp only
  unfold reportLocateFailure
  rw [owner]
  rfl

theorem failLocate_run (control : (s.machine m).control = .locating) (locate : (s.machine m).locate = some l) (owner : l.owner = .run) :
    failLocate s m reason = (locateGone s m, [.locateFailed m reason]) := by
  unfold failLocate
  rw [control, locate]
  dsimp only
  unfold reportLocateFailure
  rw [owner]
  rfl

theorem failLocate_still (still : (s.machine m).control ≠ .locating) : failLocate s m reason = (s, []) := by
  unfold failLocate
  split
  · rename_i h _
    exact absurd h still
  · rfl

end fail

theorem locateGone_work (s : State) (m : MachineId) : MachinesWork s (locateGone s m) := .changeMachine rfl

theorem locateGone_machine (s : State) (m : MachineId) :
    (locateGone s m).machine m = { s.machine m with control := .free, locate := none } := changeMachine_machine s m _

theorem locateGone_port (s : State) (m n : MachineId) : (locateGone s m).port n = s.port n := changeMachine_port ..

theorem locateGone_others (s : State) (m : MachineId) : OthersKept s (locateGone s m) m :=
  fun n hn => ⟨locateGone_port s m n, changeMachine_machine_other s _ hn⟩

/-- In CUEING the failure of a run locate by the deck holds the run; in another phase it does nothing (R126). -/
theorem takeReport_locateFailed {s : State} (m : MachineId) {reason : LocateReason} {cause : HoldCause}
    (hc : locateEffect reason m = .hold cause (some m)) :
    (s.run.phase = .cueing → takeReport s (.locateFailed m reason) = holdRun s cause (some m))
      ∧ (s.run.phase ≠ .cueing → takeReport s (.locateFailed m reason) = s) := by
  unfold takeReport reportEffect
  refine ⟨fun cueing => by rw [cueing]; simp only [hc], fun other => ?_⟩
  cases phase : s.run.phase with
  | cueing => exact absurd phase other
  | idle | rolling | editing | postroll | held => rfl

/-- What a hold of the run leaves, and its notice. -/
def HeldBy (s t : State) (cause : HoldCause) (named : Option MachineId) : Prop :=
  HoldTaken s t cause ∧ Noticed t (.runHeld cause named s.run.current (some s.run.phase) s.run.eventsDone)

theorem MachinesWork.heldBy {s u : State} (work : MachinesWork s u) (active : s.run.phase.active = true) (cause : HoldCause)
    (named : Option MachineId) : HeldBy s (holdRun u cause named) cause named := by
  have run := work.only.run
  have noticed := holdRun_noticed (s := u) (by rw [run]; exact active) cause named
  rw [run] at noticed
  exact ⟨work.holdTaken (holdRun_taken (by rw [run]; exact active) cause named), noticed⟩

/-- A hold leaves the exchange of a port that has nothing on its line. -/
theorem PortHeld.freed {p q : Port} {y : Exchange} (h : PortHeld p q) (exchange : p.exchange = some y) (off : y.onLine = false) :
    q.exchange = some y := by
  rcases h.exchange with same | offLine
  · rw [same, exchange]
  · rw [offLine, Port.offLine, exchange, ← off]
    rfl

/-- A report that a port is ONLINE again does nothing (R94). -/
theorem takeReport_online (s : State) (m : MachineId) : takeReport s (.linkChanged m .online) = s := by
  unfold takeReport reportEffect
  cases s.run.phase <;> rfl

/-- A port that comes ONLINE: its link state, and STOP placed while the STOP input is asserted (R94, R117). -/
theorem changeLink_online_delivered (s : State) (m : MachineId) :
    deliver (changeLink s m .online)
      = if s.stopAsserted then tryStop (linkReported s m .online) m else linkReported s m .online := by
  rw [changeLink_online]
  generalize (if s.stopAsserted then tryStop (linkReported s m .online) m else linkReported s m .online) = u
  split
  · exact takeReport_online u m
  · rfl

/-- What a NAK REFUSED leaves of an OFFLINE port and its machine (R82). -/
theorem nakRefused_offline {s : State} {m : MachineId} {x : Exchange} (exchange : (s.port m).exchange = some x)
    {t : State} (ht : t = deliver (changeLink (s.setPort m (s.port m).completed) m .online)) :
    t.link m = .online ∧ (t.port m).errors = 0 ∧ (∃ y, (t.port m).exchange = some y ∧ y.progress = .completed false)
      ∧ (t.machine m).control = (s.machine m).control ∧ t.run = s.run ∧ OthersKept s t m := by
  rw [changeLink_online_delivered] at ht
  have port := linkReported_port (s.setPort m (s.port m).completed) m .online
  have machine := linkReported_machine (s.setPort m (s.port m).completed) m .online
  have others := linkReported_others (s.setPort m (s.port m).completed) m .online
  have run := (linkReported_work (s.setPort m (s.port m).completed) m .online).only.run
  rw [State.setPort_port] at port
  rw [MachineRec.afterLink_online, State.setPort_machine] at machine
  generalize linkReported (s.setPort m (s.port m).completed) m .online = u at *
  rw [Port.completed_of exchange] at port
  have others' : OthersKept s u m := fun n hn =>
    ⟨(others n hn).1.trans (State.setPort_port_other s _ hn), (others n hn).2⟩
  have here : u.link m = .online ∧ (u.port m).errors = 0 := ⟨congrArg Port.link port, congrArg Port.errors port⟩
  have completed : (u.port m).exchange = some { x with progress := .completed false } := congrArg Port.exchange port
  rw [ht]
  split
  · have units := (tryMotion_units u m .stop 0).port m
    have stopped : (tryStop u m).port m = { u.port m with queue := ((tryStop u m).port m).queue, exchange := ((tryStop u m).port m).exchange } :=
      units.frame
    refine ⟨(congrArg Port.link stopped).trans here.1, (congrArg Port.errors stopped).trans here.2, ?_,
      (tryMotion_control u m m .stop 0).trans (by rw [machine]), (tryMotion_machinesOnly u m .stop 0).run.trans run, fun n hn => ?_⟩
    · rcases units.exchange with same | off
      · exact ⟨_, same.trans completed, rfl⟩
      · have freed : (u.port m).offLine.exchange = some { x with progress := .completed false, onLine := false } := by
          unfold Port.offLine
          rw [completed]
          rfl
        exact ⟨_, off.trans freed, rfl⟩
    · obtain ⟨port', machine'⟩ := tryMotion_others u m .stop 0 n hn
      exact ⟨port'.trans (others' n hn).1, machine'.trans (others' n hn).2⟩
  · exact ⟨here.1, here.2, ⟨_, completed, rfl⟩, by rw [machine], run, others'⟩

/-- What a run that minds the loss of a link does, as the statement on NAK LOCAL has it. -/
theorem LinkLost.heldBy {s v u t : State} {m : MachineId} {cause : HoldCause} (work : MachinesWork s v) (h : LinkLost v u t m cause) :
    ((s.machine m).claimed = true → (s.run.phase = .cueing ∨ s.run.phase = .rolling ∨ s.run.phase = .editing) →
        HeldBy s t cause (some m))
      ∧ ((s.machine m).claimed = true → s.run.phase = .postroll → FaultDeferred s t cause m) := by
  have run := work.only.run
  have claims := work.claims m
  refine ⟨fun claimed phase => ?_, fun claimed phase => ?_⟩
  · obtain ⟨taken, noticed⟩ := h.holds (by rw [claims]; exact claimed) (by rw [run]; exact phase)
    rw [run] at noticed
    exact ⟨work.holdTaken taken, noticed⟩
  · exact work.faultDeferred (h.defers (by rw [claims]; exact claimed) (by rw [run]; exact phase))

/-- Settles O38: the NAKs by link state, and a refused request by its kind. -/
theorem naksEndExchange : Obligations.NaksEndExchange := by
  intro s m x chars exchange p freed heldBy inEdit
  have completed : (s.port m).completed = p := Port.completed_of exchange
  refine ⟨fun refused => ?_, fun local' => ?_⟩
  · have exec : exec (.nakRefused m chars) s = .next (takeNakRefused s m) := if_pos refused
    refine ⟨fun link => ?_, fun link off => ?_, fun e rest link onLine queue => ?_, fun link => ?_⟩
    · rw [exec, takeNakRefused, link, completed]
    · rw [exec, takeNakRefused, link]
      dsimp only
      rw [refuseOnLine_none exchange off, completed]
      rfl
    · have taken : Machine.exec (.nakRefused m chars) s = .next (deliver (refuseOnLine (s.setPort m (s.port m).completed) m)) := by
        rw [exec, takeNakRefused, link]
      have work : MachinesWork s (s.setPort m { freed with queue := rest }) := .setPort s m _
      refine ⟨fun edit => ?editOff, fun plain => ?plain, fun l isLocate control locate owner => ?console,
        fun l isLocate control locate owner => ?run, fun edit other => ?editOn, fun edit minds current => ?current⟩
      case editOff =>
        obtain ⟨tracks, kind⟩ := DeckRequest.isEditOff_iff.1 edit
        rw [taken, refuseOnLine_editOff exchange onLine queue kind]
        rfl
      case plain =>
        rw [taken]
        rcases plain with kind | kind | kind | ⟨isLocate, still⟩
        · rw [refuseOnLine_transport exchange onLine queue (.inl kind)]; rfl
        · rw [refuseOnLine_transport exchange onLine queue (.inr (.inl kind))]; rfl
        · rw [refuseOnLine_transport exchange onLine queue (.inr (.inr kind))]; rfl
        · obtain ⟨target, kind⟩ := DeckRequest.isLocate_iff.1 isLocate
          rw [refuseOnLine_locate exchange onLine queue kind]
          exact congrArg (fun y => Host.Outcome.next (deliver y)) 
            (failLocate_still (s := s.setPort m { freed with queue := rest }) .refused (by exact still))
      case console =>
        obtain ⟨target, kind⟩ := DeckRequest.isLocate_iff.1 isLocate
        have failed : refuseOnLine (s.setPort m (s.port m).completed) m = _ :=
          (refuseOnLine_locate exchange onLine queue kind).trans (failLocate_console .refused (by exact control) locate owner)
        rw [failed, deliver_nil] at taken
        have port : (s.setPort m { freed with queue := rest }).port m = { freed with queue := rest } := State.setPort_port ..
        have others : OthersKept s (s.setPort m { freed with queue := rest }) m := setPort_othersKept s m _
        change Machine.exec _ s = .next (raiseNotice (locateGone (s.setPort m { freed with queue := rest }) m)
          (.locateFailed m (labelOf (modeOf s m) l.target) .refused)) at taken
        generalize s.setPort m { freed with queue := rest } = w at *
        have gone := locateGone_machine w m
        have only : MachinesOnly s (raiseNotice (locateGone w m) (.locateFailed m (labelOf (modeOf s m) l.target) .refused)) :=
          (work.trans (locateGone_work w m)).only.trans (.raiseNotice _ _)
        refine ⟨_, taken, congrArg MachineRec.control gone, congrArg MachineRec.locate gone, (locateGone_port w m m).trans port,
          raiseNotice_noticed _ _, fun n hn => ?_, only.1⟩
        obtain ⟨port', machine'⟩ := locateGone_others w m n hn
        exact ⟨port'.trans (others n hn).1, machine'.trans (others n hn).2⟩
      case run =>
        obtain ⟨target, kind⟩ := DeckRequest.isLocate_iff.1 isLocate
        have failed : refuseOnLine (s.setPort m (s.port m).completed) m = _ :=
          (refuseOnLine_locate exchange onLine queue kind).trans (failLocate_run .refused (by exact control) locate owner)
        rw [failed] at taken
        have port : (s.setPort m { freed with queue := rest }).port m = { freed with queue := rest } := State.setPort_port ..
        have others : OthersKept s (s.setPort m { freed with queue := rest }) m := setPort_othersKept s m _
        change Machine.exec _ s = .next (takeReport (locateGone (s.setPort m { freed with queue := rest }) m) _) at taken
        generalize s.setPort m { freed with queue := rest } = w at *
        have gone := locateGone_machine w m
        have work' : MachinesWork s (locateGone w m) := work.trans (locateGone_work w m)
        have port' : (locateGone w m).port m = { freed with queue := rest } := (locateGone_port w m m).trans port
        have others' : OthersKept s (locateGone w m) m := fun n hn =>
          ⟨(locateGone_others w m n hn).1.trans (others n hn).1, (locateGone_others w m n hn).2.trans (others n hn).2⟩
        have effect := takeReport_locateFailed (s := locateGone w m) m (reason := .refused) (cause := .cueFail) rfl
        have units := takeReport_units (locateGone w m) (.locateFailed m .refused)
        rw [work'.only.run] at effect
        generalize locateGone w m = v at *
        have motion := units.motion m
        have held := units.port m
        rw [port'] at held
        have ended : ((takeReport v (.locateFailed m .refused)).machine m).control = .free
            ∧ ((takeReport v (.locateFailed m .refused)).machine m).locate = none := by
          rcases motion with ⟨control, locate⟩ | ended
          · rw [control, locate, gone]
            exact ⟨rfl, rfl⟩
          · exact ended
        refine ⟨_, taken, ended.1, ended.2, held.freed rfl rfl, congrArg Port.errors held.frame, fun cueing => ?_, fun other => ?_⟩
        · rw [effect.1 cueing]
          exact work'.heldBy (by rw [cueing]; rfl) .cueFail (some m)
        · rw [effect.2 other]
          exact ⟨port', others', work'.only.2, work'.only.1⟩
      case editOn =>
        obtain ⟨tracks, kind⟩ := DeckRequest.isEditOn_iff.1 edit
        rw [taken, refuseOnLine_editOn exchange onLine queue kind]
        exact congrArg Host.Outcome.next (takeReport_editOn_other (by exact other))
      case current =>
        obtain ⟨tracks, kind⟩ := DeckRequest.isEditOn_iff.1 edit
        rw [refuseOnLine_editOn exchange onLine queue kind] at taken
        have runMinds : RunMinds s e.event := ⟨minds, current⟩
        have held : deliver (s.setPort m { freed with queue := rest }, [.editOnFailed e.event])
            = holdRun (s.setPort m { freed with queue := rest }) .editCommandFailed s.recorder := takeReport_editOn (by exact runMinds)
        have units := (holdRun_units (s.setPort m { freed with queue := rest }) .editCommandFailed s.recorder).port m
        rw [State.setPort_port] at units
        refine ⟨_, taken.trans (congrArg Host.Outcome.next held), work.heldBy runMinds.active .editCommandFailed s.recorder,
          units.freed rfl rfl, congrArg Port.errors units.frame⟩
    · exact ⟨_, exec, nakRefused_offline exchange (by rw [takeNakRefused, link])⟩
  · have exec : exec (.nakLocal m chars) s = .next (takeNakLocal s m) := if_pos local'
    have work : MachinesWork s (s.setPort m (s.port m).completed) := .setPort s m _
    refine ⟨fun link => ?_, fun link => ?_, fun link => ?_⟩
    · rw [exec, takeNakLocal, link, completed]
    · have taken : takeNakLocal s m = goLocal (s.setPort m (s.port m).completed) m := by rw [takeNakLocal, link]
      obtain ⟨u, down⟩ := goLocal_down (s.setPort m (s.port m).completed) m
      have port := down.port_after (by simp)
      rw [State.setPort_port] at port
      rw [← taken] at down port
      obtain ⟨holds, defers⟩ := down.lost.heldBy work
      refine ⟨_, exec, congrArg Port.link port, congrArg Port.queue port, congrArg Port.errors port, ?_, down.free_after, holds, defers,
        fun rest => ?_⟩
      · have offLine := congrArg Port.exchange (Port.completed_offLine exchange)
        rw [port]
        exact offLine
      · rw [down.lost.rests rest]
        exact ⟨fun n hn => ⟨(down.others n hn).1.trans (State.setPort_port_other s _ hn), (down.others n hn).2⟩, down.work.only.run⟩
    · have taken : takeNakLocal s m = deliver (changeLink (s.setPort m (s.port m).completed) m .localMode) := by
        rw [takeNakLocal, link]
      have down := changeLink_wentDown (s := s.setPort m (s.port m).completed) (m := m) (link := .localMode) rfl rfl (.refl _)
        (fun _ _ => ⟨rfl, rfl⟩) (.refl _) (rs := []) (fun r hr => by cases hr)
      have port := down.port_after (by simp)
      rw [State.setPort_port] at port
      rw [List.nil_append, ← taken] at down port
      obtain ⟨holds, defers⟩ := down.lost.heldBy work
      have queue := congrArg Port.queue port
      refine ⟨_, exec, congrArg Port.link port, congrArg Port.errors port, ?_, queue, holds, defers⟩
      rw [port, completed]

end Sys2Proof.Machine
end

section
/-! The servo and the lock count (R89, R111 to R114): what an evaluation places, what it makes of the lock counts, and what a
STATUS leaves of a machine that has no locate in progress. -/

namespace Sys2Proof.Machine

/-! ### The target and the speed (R111, R112) -/

theorem servoTarget_iff {s : State} {m : MachineId} {position : Option Nat} {target : Nat} :
    servoTarget s m position = some target ↔ TargetIs s m position target := by
  unfold servoTarget TargetIs
  cases leader : (s.machine m).leader with
  | noLeader => simp
  | timeline =>
    cases position with
    | none => simp
    | some p =>
      cases terms : (s.machine m).terms with
      | none => simp
      | some k =>
        simp only [sourceTarget, rateFields, Option.some.injEq]
        constructor
        · exact fun h => .inl ⟨trivial, .inr ⟨p, k, rfl, rfl, h.symm⟩⟩
        · rintro (⟨-, ⟨-, none⟩ | ⟨p', k', rfl, rfl, h⟩⟩ | ⟨l, off, q, none, -⟩)
          · cases none
          · exact h.symm
          · cases none
  | machine l off =>
    cases position' : (s.machine l).position with
    | none => simp [position']
    | some q =>
      simp only [position', Option.some.injEq]
      constructor
      · exact fun h => .inr ⟨l, off, q, rfl, position', h.symm⟩
      · rintro (⟨none, -⟩ | ⟨l', off', q', same, found, h⟩)
        · cases none
        · cases same
          rw [position'] at found
          cases found
          exact h.symm

theorem baseSpeed_eq (s : State) (m : MachineId) :
    (if leaderMoving s m then (rateOf (s.machine m) : Int) else 0) = baseSpeed s m := by
  unfold leaderMoving rateOf baseSpeed
  cases leader : (s.machine m).leader with
  | noLeader => simp
  | timeline =>
    cases clock : s.timeline.clock with
    | none => simp
    | some c => cases terms : (s.machine m).terms <;> simp
  | machine l off => simp

theorem chases_iff {x : MachineRec} : x.chases = true ↔ x.control = .chasing ∨ x.control = .locked := by
  unfold MachineRec.chases
  cases x.control <;> simp

section error

variable {s : State} {m : MachineId} {position : Option Nat} {p : Nat}

/-- The error of an evaluation of a machine that chases a target. -/
theorem servoError_some (released : s.stopAsserted = false) (chases : (s.machine m).control = .chasing ∨ (s.machine m).control = .locked)
    (estimate : (s.machine m).position = some p) {target : Nat} (found : TargetIs s m position target) :
    servoError s m position = some (fold (dayOf s m) ((target : Int) - (p : Int) - (s.machine m).params.lag)) := by
  unfold servoError
  rw [released, chases_iff.2 chases, servoTarget_iff.2 found, estimate]
  rfl

/-- No evaluation is made of a machine that does not chase, under STOP, or without a target. -/
theorem servoError_none
    (h : ¬ (s.stopAsserted = false ∧ ((s.machine m).control = .chasing ∨ (s.machine m).control = .locked))
      ∨ ∀ target, ¬ TargetIs s m position target) :
    servoError s m position = none := by
  unfold servoError
  split
  · rfl
  · rename_i goes
    rw [Bool.not_eq_true, Bool.or_eq_false_iff, Bool.not_eq_false'] at goes
    have none : servoTarget s m position = none := by
      rcases h with h | h
      · exact absurd ⟨goes.1, chases_iff.1 goes.2⟩ h
      · exact Option.eq_none_iff_forall_ne_some.2 fun target ht => h target (servoTarget_iff.1 ht)
    rw [none]

end error

/-- An evaluation's request: PLAY for the normal speed, SHUTTLE for any other, within the shuttle limit (R112). -/
theorem servoSpeed_eq (s : State) (m : MachineId) (e : Int) :
    servoSpeed s m e = max (-((s.machine m).params.shuttleLimit : Int)) (min ((s.machine m).params.shuttleLimit : Int)
      (baseSpeed s m + e * (((s.machine m).params.gain : Nat) : Int))) := by
  unfold servoSpeed
  rw [baseSpeed_eq]

/-- What leaves the port and the last speed as the servo's request does is an evaluation as the statement has it. -/
theorem servoActs_of {w t : State} {m : MachineId} {position : Option Nat} {p : Nat} (estimate : (w.machine m).position = some p)
    (placed : ∀ e, servoError w m position = some e →
      t.port m = (servoPlace w m e).port m ∧ (t.machine m).lastSpeed = ((servoPlace w m e).machine m).lastSpeed)
    (still : servoError w m position = none → t.port m = w.port m ∧ (t.machine m).lastSpeed = (w.machine m).lastSpeed) :
    ServoActs w t m position p := by
  refine ⟨fun target chases found => ?_, fun none => still (servoError_none none)⟩
  obtain ⟨port, speed⟩ := placed _ (servoError_some chases.1 chases.2 estimate found)
  rw [port, speed]
  have motion := tryMotion_port w m
    (speedRequest (servoSpeed w m (fold (dayOf w m) ((target : Int) - (p : Int) - (w.machine m).params.lag))))
    (servoSpeed w m (fold (dayOf w m) ((target : Int) - (p : Int) - (w.machine m).params.lag)))
  rw [servoSpeed_eq] at motion
  unfold servoPlace
  rw [servoSpeed_eq]
  exact motion

/-! ### The lock count (R113, R114) -/

/-- Work on one machine's record that touches no port, keeps the last speed and makes and ends no claim. -/
structure RecordWork (s t : State) (m : MachineId) : Prop where
  work : MachinesWork s t
  ports : t.ports = s.ports
  others : ∀ n, n ≠ m → t.machine n = s.machine n
  speed : (t.machine m).lastSpeed = (s.machine m).lastSpeed

theorem RecordWork.refl (s : State) (m : MachineId) : RecordWork s s m := ⟨.refl s, rfl, fun _ _ => rfl, rfl⟩

theorem RecordWork.changeMachine {s : State} {m : MachineId} {f : MachineRec → MachineRec}
    (claim : (f (s.machine m)).claimed = (s.machine m).claimed) (speed : (f (s.machine m)).lastSpeed = (s.machine m).lastSpeed) :
    RecordWork s (changeMachine s m f) m :=
  ⟨.changeMachine claim, changeMachine_ports s m f, fun _ hn => changeMachine_machine_other s f hn, by
    rw [changeMachine_machine]; exact speed⟩

theorem RecordWork.updateMachine {s : State} {m : MachineId} {f : MachineRec → MachineRec}
    (claim : (f (s.machine m)).claimed = (s.machine m).claimed) (speed : (f (s.machine m)).lastSpeed = (s.machine m).lastSpeed) :
    RecordWork s (updateMachine s m f) m :=
  ⟨.setMachine claim, rfl, fun _ hn => State.setMachine_machine_other s _ hn, (congrArg MachineRec.lastSpeed (State.setMachine_machine s m _)).trans speed⟩

theorem countLock_work (s : State) (m : MachineId) (e : Int) : RecordWork s (countLock s m e).1 m := by
  unfold countLock becomeLocked becomeUnlocked
  split
  · split
    · dsimp only
      exact .changeMachine rfl rfl
    · dsimp only
      exact .updateMachine rfl rfl
  · split
    · dsimp only
      exact .changeMachine rfl rfl
    · dsimp only
      exact .updateMachine rfl rfl
  · exact .refl s m
  · exact .refl s m
  · exact .refl s m

section lock

variable {s : State} {m : MachineId} {e : Int}

/-- A TC evaluation of a CHASING machine (R113). -/
theorem countLock_chasing (chasing : (s.machine m).control = .chasing) :
    (countLock s m e).2 = []
      ∧ (countLock s m e).1.machine m = { s.machine m with
          control := if e.natAbs ≤ (s.machine m).params.lockWindow ∧ (s.machine m).params.lockCount ≤ (s.machine m).inWindow + 1
            then .locked else .chasing
          inWindow := if e.natAbs ≤ (s.machine m).params.lockWindow
              ∧ ¬ (s.machine m).params.lockCount ≤ (s.machine m).inWindow + 1 then (s.machine m).inWindow + 1 else 0
          outWindow := if e.natAbs ≤ (s.machine m).params.lockWindow
              ∧ (s.machine m).params.lockCount ≤ (s.machine m).inWindow + 1 then 0 else (s.machine m).outWindow } := by
  have locks : locksAt (s.machine m) e = true
      ↔ e.natAbs ≤ (s.machine m).params.lockWindow ∧ (s.machine m).params.lockCount ≤ (s.machine m).inWindow + 1 := by
    simp [locksAt, inLockWindow, chasing]
  have window : inLockWindow (s.machine m) e = true ↔ e.natAbs ≤ (s.machine m).params.lockWindow := by simp [inLockWindow]
  unfold countLock
  rw [chasing]
  dsimp only
  by_cases lock : e.natAbs ≤ (s.machine m).params.lockWindow ∧ (s.machine m).params.lockCount ≤ (s.machine m).inWindow + 1
  · rw [if_pos (locks.2 lock)]
    refine ⟨rfl, ?_⟩
    dsimp only
    rw [becomeLocked, changeMachine_machine]
    simp [lock, MachineRec.countsCleared]
  · rw [if_neg (fun h => lock (locks.1 h))]
    refine ⟨rfl, ?_⟩
    dsimp only
    rw [updateMachine, State.setMachine_machine, if_neg lock, if_neg lock]
    by_cases inside : e.natAbs ≤ (s.machine m).params.lockWindow
    · rw [if_pos (window.2 inside), if_pos ⟨inside, fun count => lock ⟨inside, count⟩⟩, ← chasing]
    · rw [if_neg (fun h => inside (window.1 h)), if_neg (fun h => inside h.1), ← chasing]

/-- A TC evaluation of a LOCKED machine (R114). -/
theorem countLock_locked (locked : (s.machine m).control = .locked) :
    (countLock s m e).2 = (if (s.machine m).params.lockWindow + 2 < e.natAbs
        ∧ (s.machine m).params.unlockCount ≤ (s.machine m).outWindow + 1 ∧ (s.machine m).claimed = true then [.lockLost m] else [])
      ∧ (countLock s m e).1.machine m = { s.machine m with
          control := if (s.machine m).params.lockWindow + 2 < e.natAbs
              ∧ (s.machine m).params.unlockCount ≤ (s.machine m).outWindow + 1 then .chasing else .locked
          outWindow := if (s.machine m).params.lockWindow + 2 < e.natAbs
              ∧ ¬ (s.machine m).params.unlockCount ≤ (s.machine m).outWindow + 1 then (s.machine m).outWindow + 1 else 0
          inWindow := if (s.machine m).params.lockWindow + 2 < e.natAbs
              ∧ (s.machine m).params.unlockCount ≤ (s.machine m).outWindow + 1 then 0 else (s.machine m).inWindow } := by
  have unlocks : unlocksAt (s.machine m) e = true
      ↔ (s.machine m).params.lockWindow + 2 < e.natAbs ∧ (s.machine m).params.unlockCount ≤ (s.machine m).outWindow + 1 := by
    simp [unlocksAt, outOfLockWindow, locked]
  have window : outOfLockWindow (s.machine m) e = true ↔ (s.machine m).params.lockWindow + 2 < e.natAbs := by
    simp [outOfLockWindow]
  unfold countLock
  rw [locked]
  dsimp only
  by_cases unlock : (s.machine m).params.lockWindow + 2 < e.natAbs ∧ (s.machine m).params.unlockCount ≤ (s.machine m).outWindow + 1
  · rw [if_pos (unlocks.2 unlock)]
    refine ⟨?_, ?_⟩
    · unfold becomeUnlocked
      simp [unlock]
    · unfold becomeUnlocked
      dsimp only
      rw [changeMachine_machine]
      simp [unlock, MachineRec.countsCleared]
  · rw [if_neg (fun h => unlock (unlocks.1 h))]
    refine ⟨(if_neg fun h => unlock ⟨h.1, h.2.1⟩).symm, ?_⟩
    dsimp only
    rw [updateMachine, State.setMachine_machine, if_neg unlock, if_neg unlock]
    by_cases outside : (s.machine m).params.lockWindow + 2 < e.natAbs
    · rw [if_pos (window.2 outside), if_pos ⟨outside, fun count => unlock ⟨outside, count⟩⟩, ← locked]
    · rw [if_neg (fun h => outside (window.1 h)), if_neg (fun h => outside h.1), ← locked]

end lock

theorem servoPlace_record (s : State) (m : MachineId) (e : Int) :
    (servoPlace s m e).machine m = { s.machine m with lastSpeed := ((servoPlace s m e).machine m).lastSpeed } :=
  tryMotion_record s m _ _

theorem servoPlace_others (s : State) (m : MachineId) (e : Int) : OthersKept s (servoPlace s m e) m := tryMotion_others s m _ _

theorem servoPlace_work (s : State) (m : MachineId) (e : Int) : MachinesWork s (servoPlace s m e) := .tryMotion s m _ _

/-- What an evaluation leaves beside the record: the port and the last speed as the servo's request, or as they were. -/
theorem tcEvaluation_acts {s : State} {m : MachineId} {position : Option Nat} {p : Nat} (estimate : (s.machine m).position = some p) :
    ServoActs s (tcEvaluation s m position).1 m position p ∧ OthersKept s (tcEvaluation s m position).1 m
      ∧ MachinesWork s (tcEvaluation s m position).1 := by
  unfold tcEvaluation
  cases error : servoError s m position with
  | none =>
    dsimp only
    exact ⟨servoActs_of estimate (fun e he => by rw [error] at he; cases he) fun _ => ⟨rfl, rfl⟩, fun _ _ => ⟨rfl, rfl⟩, .refl s⟩
  | some e =>
    dsimp only
    have counted := countLock_work (servoPlace s m e) m e
    have ports (n : MachineId) : (countLock (servoPlace s m e) m e).1.port n = (servoPlace s m e).port n := by
      unfold State.port
      rw [counted.ports]
    refine ⟨servoActs_of estimate (fun e' he => ?_) (fun none => by rw [error] at none; cases none), fun n hn => ⟨?_, ?_⟩,
      (servoPlace_work s m e).trans counted.work⟩
    · rw [error] at he
      cases he
      exact ⟨ports m, counted.speed⟩
    · rw [ports]; exact (servoPlace_others s m e n hn).1
    · rw [counted.others n hn]; exact (servoPlace_others s m e n hn).2

end Sys2Proof.Machine
end

section
/-! The statement on the estimate and the servo (R88, R89, R111 to R114): what a STATUS leaves of a machine that has no locate in
progress, and a machine's share of a field start. -/

namespace Sys2Proof.Machine

/-! ### A STATUS up to the report ANSWERED (R77, R88) -/

/-- The port once a STATUS has completed its exchange and the request on the line has left the queue. -/
def Port.answered (p : Port) (x : Exchange) : Port :=
  { p with
    errors := 0
    exchange := some { x with progress := .completed false, onLine := if p.queue = [] then x.onLine else false }
    queue := if x.onLine then p.queue.drop 1 else p.queue }

/-- The record of a machine whose STATUS gives no position. -/
def MachineRec.reported (x : MachineRec) (p : StatusPayload) : MachineRec :=
  { x with transport := some p.transport, parkedFlag := p.parked }

/-- The record of a machine whose STATUS gives a position. -/
def MachineRec.updated (x : MachineRec) (p : StatusPayload) (n : Nat) : MachineRec :=
  { x with transport := some p.transport, parkedFlag := p.parked, position := some n, quality := .tc, tcUpdated := true }

/-- The state in which the request on the line is answered: a position was given, or none. -/
def statusUpdated (s : State) (m : MachineId) (x : Exchange) (p : StatusPayload) (n : Nat) : State :=
  (s.setPort m (((s.port m).answered x).anchored n)).setMachine m ((s.machine m).updated p n)

/-- The same without a position. -/
def statusReported (s : State) (m : MachineId) (x : Exchange) (p : StatusPayload) : State :=
  (s.setPort m ((s.port m).answered x)).setMachine m ((s.machine m).reported p)

theorem parkingTest_still {s : State} {m : MachineId} (still : (s.machine m).control ≠ .locating) (transport : Transport)
    (parked : Bool) (update : Option Nat) : parkingTest s m transport parked update = (s, []) := by
  unfold parkingTest
  split
  · rename_i h _
    exact absurd h still
  · rfl

theorem acknowledgeLocate_still {s : State} {m : MachineId} (still : (s.machine m).control ≠ .locating) :
    acknowledgeLocate s m = s := by
  unfold acknowledgeLocate
  split
  · rename_i h _
    exact absurd h still
  · rfl

theorem setPort_port_self (s : State) (m : MachineId) : s.setPort m (s.port m) = s := by
  unfold State.setPort State.port
  rw [Bank.set_get]

theorem setPort_again (s : State) (m : MachineId) (r : MachineRec) (p q : Port) :
    ((s.setPort m p).setMachine m r).setPort m q = (s.setPort m q).setMachine m r := by
  unfold State.setPort State.setMachine
  rw [Bank.set_set]

/-- The request on the line leaves the queue; a machine that locates nothing takes no acknowledgement. -/
theorem answerOnLine_still {s : State} {m : MachineId} (still : (s.machine m).control ≠ .locating) {x : Exchange}
    (exchange : (s.port m).exchange = some x) :
    answerOnLine s m = s.setPort m { s.port m with
      exchange := some { x with onLine := if (s.port m).queue = [] then x.onLine else false }
      queue := if x.onLine then (s.port m).queue.drop 1 else (s.port m).queue } := by
  unfold answerOnLine
  cases onLine : x.onLine with
  | false =>
    rw [Port.onLineRequest_none exchange onLine]
    have same : (s.port m) = { s.port m with exchange := some { x with onLine := false } } := by
      rw [← onLine, ← exchange]
    simp only [ite_self, Bool.false_eq_true, if_false]
    rw [← same, setPort_port_self]
  | true =>
    cases queue : (s.port m).queue with
    | nil =>
      have none : (s.port m).onLineRequest = none := by simp [Port.onLineRequest, Port.lineHead, queue]
      rw [none]
      have same : (s.port m) = { s.port m with queue := [], exchange := some { x with onLine := true } } := by
        rw [← onLine, ← exchange, ← queue]
      simp only [if_true, List.drop_nil]
      rw [← same, setPort_port_self]
    | cons e rest =>
      rw [Port.onLineRequest_some exchange onLine queue]
      have removed : (s.port m).removeOnLine = { s.port m with queue := rest, exchange := some { x with onLine := false } } := by
        simp [Port.removeOnLine, Port.headOnLine, exchange, onLine, queue, Port.offLine]
      dsimp only
      rw [removed, acknowledgeLocate_still (by exact still)]
      simp

section applied

variable {s : State} {m : MachineId} {x : Exchange} {p : StatusPayload}

/-- A STATUS that gives a machine without a locate its position. -/
theorem statusApplied_updated (exchange : (s.port m).exchange = some x) (still : (s.machine m).control ≠ .locating) {n : Nat}
    (update : statusPosition (modeOf s m) p = some n) : statusApplied s m p = (statusUpdated s m x p n, []) := by
  have applied : applyStatus (s.setPort m (s.port m).completed) m p (tcUpdateOf s m p)
      = (s.setPort m ((s.port m).completed.anchored n)).setMachine m ((s.machine m).updated p n) := by
    unfold applyStatus tcUpdateOf
    rw [update]
    dsimp only
    rw [State.setPort_twice, State.setPort_port]
    rfl
  unfold statusApplied
  rw [applied]
  dsimp only
  have record : ((s.setPort m ((s.port m).completed.anchored n)).setMachine m ((s.machine m).updated p n)).machine m
      = (s.machine m).updated p n := State.setMachine_machine ..
  have port : ((s.setPort m ((s.port m).completed.anchored n)).setMachine m ((s.machine m).updated p n)).port m
      = (s.port m).completed.anchored n := by rw [State.setMachine_port, State.setPort_port]
  rw [parkingTest_still (by rw [record]; exact still), answerOnLine_still (x := { x with progress := .completed false })
    (by rw [record]; exact still) (by rw [port]; exact congrArg Port.exchange (Port.completed_of exchange)), port]
  rw [Port.completed_of exchange, setPort_again]
  rfl

/-- A STATUS that gives a machine without a locate no position. -/
theorem statusApplied_reported (exchange : (s.port m).exchange = some x) (still : (s.machine m).control ≠ .locating)
    (update : statusPosition (modeOf s m) p = none) : statusApplied s m p = (statusReported s m x p, []) := by
  have applied : applyStatus (s.setPort m (s.port m).completed) m p (tcUpdateOf s m p)
      = (s.setPort m (s.port m).completed).setMachine m ((s.machine m).reported p) := by
    unfold applyStatus tcUpdateOf
    rw [update]
    rfl
  unfold statusApplied
  rw [applied]
  dsimp only
  have record : ((s.setPort m (s.port m).completed).setMachine m ((s.machine m).reported p)).machine m
      = (s.machine m).reported p := State.setMachine_machine ..
  have port : ((s.setPort m (s.port m).completed).setMachine m ((s.machine m).reported p)).port m
      = (s.port m).completed := by rw [State.setMachine_port, State.setPort_port]
  rw [parkingTest_still (by rw [record]; exact still), answerOnLine_still (x := { x with progress := .completed false })
    (by rw [record]; exact still) (by rw [port]; exact congrArg Port.exchange (Port.completed_of exchange)), port]
  rw [Port.completed_of exchange, setPort_again]
  rfl

end applied

/-! ### The servo and the link after a STATUS -/

/-- The timeline domain turns on the recorder, the standard and the label modes. -/
theorem dayRec_congr {s t : State} (recorder : t.recorder = s.recorder) (timeline : t.timeline = s.timeline)
    (params : ∀ n, (t.machine n).params = (s.machine n).params) : dayRec t = dayRec s := by
  have modes (n : MachineId) : modeOf t n = modeOf s n := congrArg MachineParams.mode (params n)
  unfold dayRec timelineMode
  rw [recorder, timeline]
  cases s.recorder with
  | none => rfl
  | some r => exact congrArg LabelMode.day (modes r)

theorem positionAt_congr {s t : State} (recorder : t.recorder = s.recorder) (timeline : t.timeline = s.timeline)
    (params : ∀ n, (t.machine n).params = (s.machine n).params) (k : Nat) : positionAt t k = positionAt s k := by
  unfold positionAt fieldCount
  rw [dayRec_congr recorder timeline params, timeline]

theorem statusLink_online {s : State} {m : MachineId} (online : s.link m = .online) : statusLink s m = (s, []) := by
  unfold statusLink
  rw [online]

theorem statusServo_update {s : State} {m : MachineId} (n : Nat) :
    statusServo s m (some n) = tcEvaluation s m (exchangePosition s m) := rfl

section taken

variable {s : State} {m : MachineId} {x : Exchange} {p : StatusPayload} {n : Nat}

theorem statusUpdated_machine : (statusUpdated s m x p n).machine m = (s.machine m).updated p n := State.setMachine_machine ..

theorem statusUpdated_port : (statusUpdated s m x p n).port m = ((s.port m).answered x).anchored n := by
  unfold statusUpdated
  rw [State.setMachine_port, State.setPort_port]

theorem statusUpdated_work : MachinesWork s (statusUpdated s m x p n) :=
  (MachinesWork.setPort s m _).trans (.setMachine rfl)

theorem statusUpdated_others : OthersKept s (statusUpdated s m x p n) m :=
  fun _ hn => ⟨State.setPort_port_other s _ hn, State.setMachine_machine_other _ _ hn⟩

theorem statusUpdated_params (k : MachineId) : ((statusUpdated s m x p n).machine k).params = (s.machine k).params := by
  by_cases hk : k = m
  · rw [hk, statusUpdated_machine]; rfl
  · rw [(statusUpdated_others k hk).2]

theorem exchangePosition_updated : exchangePosition (statusUpdated s m x p n) m = positionAt s x.field := by
  have exchange := congrArg Port.exchange (statusUpdated_port (s := s) (m := m) (x := x) (p := p) (n := n))
  unfold exchangePosition
  rw [exchange]
  exact positionAt_congr (s := s) (t := statusUpdated s m x p n) rfl rfl statusUpdated_params x.field

/-- A STATUS with a position, of a machine without a locate: the evaluation, and then the link. -/
theorem takeStatus_updated (exchange : (s.port m).exchange = some x) (still : (s.machine m).control ≠ .locating)
    (update : statusPosition (modeOf s m) p = some n) :
    takeStatus s m p
      = deliver ((statusLink (tcEvaluation (statusUpdated s m x p n) m (positionAt s x.field)).1 m).1,
          (tcEvaluation (statusUpdated s m x p n) m (positionAt s x.field)).2
            ++ (statusLink (tcEvaluation (statusUpdated s m x p n) m (positionAt s x.field)).1 m).2) := by
  have position : tcUpdateOf s m p = some n := update
  unfold takeStatus
  rw [statusApplied_updated exchange still update, position]
  dsimp only
  rw [statusServo_update, exchangePosition_updated, List.nil_append]

theorem statusError_updated (exchange : (s.port m).exchange = some x) (still : (s.machine m).control ≠ .locating)
    (update : statusPosition (modeOf s m) p = some n) :
    statusError s m p = servoError (statusUpdated s m x p n) m (positionAt s x.field) := by
  have position : tcUpdateOf s m p = some n := update
  unfold statusError
  rw [position]
  dsimp only
  rw [statusApplied_updated exchange still update]
  dsimp only
  rw [exchangePosition_updated]

end taken

theorem execStatusReply_of {s : State} {m : MachineId} {chars : List Byte} {p : StatusPayload} (status : statusOf s m chars = some p) :
    exec (.statusReply m chars) s = .next (takeStatus s m p) := by
  show execStatusReply m chars s = _
  unfold execStatusReply
  rw [status]

section evaluated

variable {s : State} {m : MachineId} {position : Option Nat} {e : Int}

theorem tcEvaluation_none (none : servoError s m position = none) : tcEvaluation s m position = (s, []) := by
  unfold tcEvaluation
  rw [none]

theorem tcEvaluation_some (error : servoError s m position = some e) :
    tcEvaluation s m position = countLock (servoPlace s m e) m e := by
  unfold tcEvaluation
  rw [error]

theorem tcEvaluation_chasing (error : servoError s m position = some e) (chasing : (s.machine m).control = .chasing) :
    (tcEvaluation s m position).2 = []
      ∧ (tcEvaluation s m position).1.machine m = { s.machine m with
          lastSpeed := ((tcEvaluation s m position).1.machine m).lastSpeed
          control := if e.natAbs ≤ (s.machine m).params.lockWindow ∧ (s.machine m).params.lockCount ≤ (s.machine m).inWindow + 1
            then .locked else .chasing
          inWindow := if e.natAbs ≤ (s.machine m).params.lockWindow
              ∧ ¬ (s.machine m).params.lockCount ≤ (s.machine m).inWindow + 1 then (s.machine m).inWindow + 1 else 0
          outWindow := if e.natAbs ≤ (s.machine m).params.lockWindow
              ∧ (s.machine m).params.lockCount ≤ (s.machine m).inWindow + 1 then 0 else (s.machine m).outWindow } := by
  have record := servoPlace_record s m e
  rw [tcEvaluation_some error]
  generalize servoPlace s m e = u at *
  obtain ⟨reports, counted⟩ := countLock_chasing (s := u) (m := m) (e := e) (by rw [record]; exact chasing)
  refine ⟨reports, ?_⟩
  rw [counted, record]

theorem tcEvaluation_locked (error : servoError s m position = some e) (locked : (s.machine m).control = .locked) :
    (tcEvaluation s m position).2 = (if (s.machine m).params.lockWindow + 2 < e.natAbs
        ∧ (s.machine m).params.unlockCount ≤ (s.machine m).outWindow + 1 ∧ (s.machine m).claimed = true then [.lockLost m] else [])
      ∧ (tcEvaluation s m position).1.machine m = { s.machine m with
          lastSpeed := ((tcEvaluation s m position).1.machine m).lastSpeed
          control := if (s.machine m).params.lockWindow + 2 < e.natAbs
              ∧ (s.machine m).params.unlockCount ≤ (s.machine m).outWindow + 1 then .chasing else .locked
          outWindow := if (s.machine m).params.lockWindow + 2 < e.natAbs
              ∧ ¬ (s.machine m).params.unlockCount ≤ (s.machine m).outWindow + 1 then (s.machine m).outWindow + 1 else 0
          inWindow := if (s.machine m).params.lockWindow + 2 < e.natAbs
              ∧ (s.machine m).params.unlockCount ≤ (s.machine m).outWindow + 1 then 0 else (s.machine m).inWindow } := by
  have record := servoPlace_record s m e
  rw [tcEvaluation_some error]
  generalize servoPlace s m e = u at *
  obtain ⟨reports, counted⟩ := countLock_locked (s := u) (m := m) (e := e) (by rw [record]; exact locked)
  refine ⟨by rw [reports, record], ?_⟩
  rw [counted, record]

/-- An evaluation places at the port what the port takes, and changes it in nothing else. -/
theorem tcEvaluation_port (s : State) (m : MachineId) (position : Option Nat) :
    PortHeld (s.port m) ((tcEvaluation s m position).1.port m) := by
  cases error : servoError s m position with
  | none => rw [tcEvaluation_none error]; exact .refl _
  | some e =>
    have ports : (countLock (servoPlace s m e) m e).1.port m = (servoPlace s m e).port m := by
      unfold State.port
      rw [(countLock_work (servoPlace s m e) m e).ports]
    rw [tcEvaluation_some error, ports]
    exact (tryMotion_units s m _ _).port m

end evaluated

/-! ### A machine's share of a field start (R89, R111) -/

section estimate

variable {s : State} {m : MachineId}

theorem ctlEstimate_of {a : Nat} (anchor : (s.port m).ctlAnchor = some a) (enabled : (s.machine m).params.ctlEnable = true)
    (tally : (s.port m).ctlTally < 256) : ctlEstimate s m = some (wrap (dayOf s m) ((a : Int) + 2 * (s.port m).ctlCounter)) := by
  have few : (s.port m).ctlTally < Config.ctlFrameLimit := tally
  unfold ctlEstimate
  rw [anchor]
  simp [enabled, few]

theorem ctlEstimate_lost
    (lost : (s.port m).ctlAnchor = none ∨ (s.machine m).params.ctlEnable = false ∨ 256 ≤ (s.port m).ctlTally) :
    ctlEstimate s m = none := by
  unfold ctlEstimate
  split
  · rename_i a anchor
    refine if_neg fun test => ?_
    rw [Bool.and_eq_true, decide_eq_true_eq] at test
    have few : (s.port m).ctlTally < 256 := test.2
    rcases lost with none | disabled | many
    · rw [anchor] at none; cases none
    · rw [disabled] at test; cases test.1
    · omega
  · rfl

theorem unlocksStale_iff : unlocksStale s m = true ↔ (s.machine m).configured = true ∧ (s.machine m).tcUpdated = false
    ∧ ctlEstimate s m = none ∧ (s.machine m).control = .locked ∧ 7 ≤ (s.machine m).stale := by
  simp only [unlocksStale, goesStale, Bool.and_eq_true, Bool.not_eq_true', Option.isNone_iff_eq_none, beq_iff_eq, decide_eq_true_eq,
    and_assoc, Nat.reduceLeDiff]

end estimate

theorem machineField_tc {s : State} {m : MachineId} (configured : (s.machine m).configured = true)
    (updated : (s.machine m).tcUpdated = true) : machineField s m = updateMachine s m MachineRec.keptTc := by
  unfold machineField
  rw [configured, updated]
  rfl

theorem machineField_ctl {s : State} {m : MachineId} {p : Nat} (configured : (s.machine m).configured = true)
    (still : (s.machine m).tcUpdated = false) (estimate : ctlEstimate s m = some p) :
    machineField s m = ctlEvaluation (updateMachine s m (fun x => x.onCtl p)) m (currentPosition s) := by
  unfold machineField
  rw [configured, still, estimate]
  rfl

theorem machineField_stale {s : State} {m : MachineId} (configured : (s.machine m).configured = true)
    (still : (s.machine m).tcUpdated = false) (none : ctlEstimate s m = none) :
    machineField s m = if unlocksStale s m then deliver (becomeUnlocked (updateMachine s m MachineRec.onStale) m)
      else updateMachine s m MachineRec.onStale := by
  unfold machineField
  rw [configured, still, none]
  rfl

theorem ctlEvaluation_acts {s : State} {m : MachineId} {position : Option Nat} {p : Nat} (estimate : (s.machine m).position = some p) :
    ServoActs s (ctlEvaluation s m position) m position p ∧ OthersKept s (ctlEvaluation s m position) m
      ∧ (ctlEvaluation s m position).machine m
          = { s.machine m with lastSpeed := ((ctlEvaluation s m position).machine m).lastSpeed }
      ∧ ctlEvaluation s m position
          = { s with ports := (ctlEvaluation s m position).ports, machines := (ctlEvaluation s m position).machines } := by
  unfold ctlEvaluation
  cases error : servoError s m position with
  | none =>
    dsimp only
    exact ⟨servoActs_of estimate (fun e he => by rw [error] at he; cases he) fun _ => ⟨rfl, rfl⟩, fun _ _ => ⟨rfl, rfl⟩, rfl, rfl⟩
  | some e =>
    dsimp only
    refine ⟨servoActs_of estimate (fun e' he => ?_) (fun none => by rw [error] at none; cases none), servoPlace_others s m e,
      servoPlace_record s m e, ?_⟩
    · rw [error] at he
      cases he
      exact ⟨rfl, rfl⟩
    · unfold servoPlace
      rcases tryMotion_cases s m (speedRequest (servoSpeed s m e)) (servoSpeed s m e) with h | ⟨q, -, h⟩
      · rw [h]
      · rw [h]; rfl

/-- Settles O41: the estimate at a field start by its source, and the evaluation that a STATUS brings about. -/
theorem estimateAndServoFollowEachUpdate : Obligations.EstimateAndServoFollowEachUpdate := by
  refine ⟨fun s m waits configured => ?field, fun s m x chars p n online exchange status update control => ?status⟩
  case field =>
    have taken := takeField_waiting waits
    refine ⟨fun updated => ?_, fun still => ⟨fun a anchor enabled tally => ?_, fun lost low => ?_⟩⟩
    · exact taken.trans (machineField_tc (s := { s with waiting := s.waiting.erase (.machine m) }) configured updated)
    · intro p w
      have field := taken.trans (machineField_ctl (s := { s with waiting := s.waiting.erase (.machine m) }) configured still
        (ctlEstimate_of anchor enabled tally))
      have position : (w.machine m).position = some p := congrArg MachineRec.position (State.setMachine_machine s m _)
      rw [field]
      obtain ⟨acts, others, record, frame⟩ := ctlEvaluation_acts (s := w) (m := m) (position := currentPosition s) position
      exact ⟨acts, record, others, frame⟩
    · refine taken.trans ((machineField_stale (s := { s with waiting := s.waiting.erase (.machine m) }) configured still
        (ctlEstimate_lost lost)).trans (if_neg fun unlocks => ?_))
      obtain ⟨-, -, -, locked, high⟩ := unlocksStale_iff.1 unlocks
      rcases low with other | low
      · exact other locked
      · have high : 7 ≤ (s.machine m).stale := high
        omega
  case status =>
    intro line w position c
    have chases : c.control = .chasing ∨ c.control = .locked := by
      rcases control with h | h
      · exact .inl h
      · exact .inr h.1
    have still : (s.machine m).control ≠ .locating := by
      intro locating
      rcases chases with h | h <;> rw [show c.control = .locating from locating] at h <;> cases h
    have taken := takeStatus_updated exchange still update
    have machine : w.machine m = c.updated p n := statusUpdated_machine
    have estimate : (w.machine m).position = some n := congrArg MachineRec.position machine
    have chasing (h : c.control = .chasing) : (w.machine m).control = .chasing := (congrArg MachineRec.control machine).trans h
    have locked (h : c.control = .locked) : (w.machine m).control = .locked := (congrArg MachineRec.control machine).trans h
    have same : w = statusUpdated s m x p n := rfl
    have others : OthersKept s w m := statusUpdated_others
    have link : w.link m = .online := (congrArg Port.link (statusUpdated_port (s := s) (m := m) (x := x) (p := p) (n := n))).trans online
    have day : dayOf w m = dayOf s m :=
      (congrArg (fun y : MachineRec => y.params.mode.day) machine).trans rfl
    have released : w.stopAsserted = s.stopAsserted := rfl
    rw [← same] at taken
    generalize w = v at *
    obtain ⟨acts, kept, work⟩ := tcEvaluation_acts (s := v) (m := m) (position := position) estimate
    have reports : (tcEvaluation v m position).2 = [] := by
      cases error : servoError v m position with
      | none => rw [tcEvaluation_none error]
      | some e =>
        rcases control with h | ⟨h, quiet⟩
        · exact (tcEvaluation_chasing error (chasing h)).1
        · rw [(tcEvaluation_locked error (locked h)).1, machine]
          refine if_neg fun lost => ?_
          obtain ⟨-, count, claimed⟩ := lost
          have count : c.params.unlockCount ≤ c.outWindow + 1 := count
          have claimed : c.claimed = true := claimed
          rcases quiet with unclaimed | few
          · rw [show c.claimed = false from unclaimed] at claimed; cases claimed
          · have few : c.outWindow + 1 < c.params.unlockCount := few
            omega
    have stays : (tcEvaluation v m position).1.link m = .online :=
      (congrArg Port.link (tcEvaluation_port v m position).frame).trans link
    rw [statusLink_online stays, reports] at taken
    refine ⟨_, (execStatusReply_of status).trans (congrArg Host.Outcome.next taken), acts, kept, work.only.1, fun idle => ?_,
      fun target free found => ?_⟩
    · have none : servoError v m position = none := servoError_none (by
        rcases idle with stopped | lost
        · exact .inl fun h => by rw [released, stopped] at h; cases h.1
        · exact .inr lost)
      rw [tcEvaluation_none none]
      rfl
    · intro e
      have error := servoError_some (position := position) (by rw [released]; exact free)
        (chases.imp chasing locked) estimate found
      rw [day] at error
      refine ⟨fun h => ?_, fun h => ?_⟩
      · have counted := (tcEvaluation_chasing error (chasing h)).2
        have lag : (v.machine m).params = c.params := (congrArg MachineRec.params machine).trans rfl
        have count : (v.machine m).inWindow = c.inWindow := (congrArg MachineRec.inWindow machine).trans rfl
        have out : (v.machine m).outWindow = c.outWindow := (congrArg MachineRec.outWindow machine).trans rfl
        rw [lag, count, out] at counted
        exact counted
      · have counted := (tcEvaluation_locked error (locked h)).2
        have lag : (v.machine m).params = c.params := (congrArg MachineRec.params machine).trans rfl
        have count : (v.machine m).inWindow = c.inWindow := (congrArg MachineRec.inWindow machine).trans rfl
        have out : (v.machine m).outWindow = c.outWindow := (congrArg MachineRec.outWindow machine).trans rfl
        rw [lag, count, out] at counted
        exact counted

end Sys2Proof.Machine
end

section
/-! The statement on LOCK and UNLOCK (R94, R113, R114, R128, R130, R132), and what a STATUS does to the link (R79, R82). -/

namespace Sys2Proof.Machine

/-! ### The link after a STATUS (R79, R82, R94) -/

/-- What a STATUS does to the link once the evaluation is made; `u` is the state after. -/
structure LinkRestored (s u : State) (m : MachineId) : Prop where
  work : MachinesWork s u
  machine : u.machine m = { s.machine m with lastSpeed := (u.machine m).lastSpeed }
  others : OthersKept s u m
  port : u.port m = { s.port m with link := (u.port m).link, queue := (u.port m).queue, exchange := (u.port m).exchange }
  online : s.link m ≠ .absent → u.link m = .online
  notices : NoticesKept s u
  noticed : s.stopAsserted = false → Noticed s (machineStateNotice s m) → Noticed u (machineStateNotice u m)

theorem LinkRestored.refl {s : State} {m : MachineId} (online : s.link m ≠ .absent → s.link m = .online) : LinkRestored s s m :=
  ⟨.refl s, rfl, fun _ _ => ⟨rfl, rfl⟩, rfl, online, .refl s, fun _ h => h⟩

theorem linkReported_restored (s : State) (m : MachineId) : LinkRestored s (linkReported s m .online) m := by
  have machine := linkReported_machine s m .online
  have port := linkReported_port s m .online
  rw [MachineRec.afterLink_online] at machine
  refine ⟨linkReported_work s m .online, by rw [machine], linkReported_others s m .online, by rw [port],
    fun _ => congrArg Port.link port, ?_, fun _ _ => raiseNotice_noticed _ _⟩
  exact NoticesKept.trans (t := (s.setPort m { s.port m with link := .online }).setMachine m ((s.machine m).afterLink .online))
    (.of_console rfl) (.raiseNotice _ _)

/-- STOP placed while the STOP input is asserted changes the port and the last speed alone. -/
theorem tryStop_restored {s u : State} {m : MachineId} (h : LinkRestored s u m) (stopped : s.stopAsserted = true) :
    LinkRestored s (tryStop u m) m := by
  have frame := ((tryMotion_units u m .stop 0).port m).frame
  have record := tryMotion_record u m .stop 0
  refine ⟨h.work.trans (.tryMotion u m .stop 0), ?_, fun n hn => ⟨?_, ?_⟩, ?_, fun present => ?_, ?_, fun free => ?_⟩
  · unfold tryStop
    rw [record, h.machine]
  · exact (tryMotion_others u m .stop 0 n hn).1.trans (h.others n hn).1
  · exact (tryMotion_others u m .stop 0 n hn).2.trans (h.others n hn).2
  · unfold tryStop
    rw [frame, h.port]
  · exact (congrArg Port.link frame).trans (h.online present)
  · refine h.notices.trans (.of_console ?_)
    unfold tryStop
    rcases tryMotion_cases u m .stop 0 with same | ⟨p, -, same⟩
    · rw [same]
    · rw [same]; rfl
  · rw [stopped] at free; cases free

theorem statusLink_restored (s : State) (m : MachineId) : LinkRestored s (statusLink s m).1 m := by
  have changed : LinkRestored s (changeLink s m .online).1 m := by
    rw [changeLink_online]
    dsimp only
    split
    · rename_i stopped
      exact tryStop_restored (linkReported_restored s m) stopped
    · exact linkReported_restored s m
  unfold statusLink
  cases link : s.link m with
  | localMode | offline => exact changed
  | online => exact .refl fun _ => link
  | absent => exact .refl fun present => absurd link present

/-- That a port is ONLINE again is reported, and the run does nothing about it. -/
theorem deliver_statusLink (s u : State) (m : MachineId) (rs : List RunReport) :
    deliver (u, rs ++ (statusLink s m).2) = deliver (u, rs) := by
  have quiet : (statusLink s m).2 = [] ∨ (statusLink s m).2 = [.linkChanged m .online] := by
    have changed : (changeLink s m .online).2 = [] ∨ (changeLink s m .online).2 = [.linkChanged m .online] := by
      rw [changeLink_online]
      by_cases claimed : (s.machine m).claimed = true
      · exact .inr (if_pos claimed)
      · exact .inl (if_neg claimed)
    unfold statusLink
    cases s.link m with
    | localMode | offline => exact changed
    | online | absent => exact .inl rfl
  rcases quiet with none | one
  · rw [none, List.append_nil]
  · rw [one, deliver_append]
    exact takeReport_online _ m

/-! ### The loss of a lock (R128, R130, R132) -/

/-- The run holds at the loss of a lock: in EDITING, and in ROLLING once the sync deadline has passed. -/
def HoldsAtUnlock (s : State) (m : MachineId) : Prop :=
  (s.machine m).claimed = true ∧ (s.run.phase = .editing ∨ (s.run.phase = .rolling ∧ s.run.deadlinePassed = true))

/-- The run defers the loss of a lock. -/
def DefersAtUnlock (s : State) (m : MachineId) : Prop := (s.machine m).claimed = true ∧ s.run.phase = .postroll

theorem takeReport_lockLost_holds {s : State} (m : MachineId)
    (phase : s.run.phase = .editing ∨ (s.run.phase = .rolling ∧ s.run.deadlinePassed = true)) :
    takeReport s (.lockLost m) = holdRun s .lockLost (some m) := by
  unfold takeReport reportEffect
  rcases phase with editing | ⟨rolling, passed⟩
  · rw [editing]
  · rw [rolling]
    simp only [passed, if_true]

theorem takeReport_lockLost_defers {s : State} (m : MachineId) (phase : s.run.phase = .postroll) :
    takeReport s (.lockLost m) = deferFault s .lockLost m := by
  unfold takeReport reportEffect
  rw [phase]

theorem takeReport_lockLost_quiet {s : State} (m : MachineId)
    (other : ¬ (s.run.phase = .editing ∨ (s.run.phase = .rolling ∧ s.run.deadlinePassed = true))) (active : s.run.phase ≠ .postroll) :
    takeReport s (.lockLost m) = s := by
  unfold takeReport reportEffect
  cases phase : s.run.phase with
  | idle | cueing | held => rfl
  | rolling =>
    dsimp only
    rw [if_neg fun passed => other (.inr ⟨phase, passed⟩)]
  | editing => exact absurd (.inl phase) other
  | postroll => exact absurd phase active

/-- What the run makes of the loss of a lock; `s` is the state before the machine's work and `u` after. -/
structure LockLost (s u t : State) (m : MachineId) : Prop where
  frame : ¬ HoldsAtUnlock s m → t = { u with run := t.run }
  quiet : ¬ HoldsAtUnlock s m → ¬ DefersAtUnlock s m → t = u
  holds : HoldsAtUnlock s m → HeldBy s t .lockLost (some m)
  defers : DefersAtUnlock s m → FaultDeferred s t .lockLost m

theorem deliver_lockLost {s u : State} {m : MachineId} (work : MachinesWork s u) :
    LockLost s u (deliver (u, if (s.machine m).claimed then [.lockLost m] else [])) m := by
  have run := work.only.run
  by_cases claimed : (s.machine m).claimed = true
  · rw [if_pos claimed]
    show LockLost s u (takeReport u (.lockLost m)) m
    refine ⟨fun goes => ?_, fun goes other => ?_, fun holds => ?_, fun defers => ?_⟩
    · by_cases postroll : u.run.phase = .postroll
      · rw [takeReport_lockLost_defers m postroll]
        exact (deferFault_spec u .lockLost m).2
      · rw [takeReport_lockLost_quiet m (fun phase => goes ⟨claimed, by rw [run] at phase; exact phase⟩) postroll]
    · exact takeReport_lockLost_quiet m (fun phase => goes ⟨claimed, by rw [run] at phase; exact phase⟩)
        (fun postroll => other ⟨claimed, by rw [run] at postroll; exact postroll⟩)
    · rw [takeReport_lockLost_holds m (by rw [run]; exact holds.2)]
      refine work.heldBy ?_ .lockLost (some m)
      rcases holds.2 with phase | ⟨phase, -⟩ <;> rw [phase] <;> rfl
    · rw [takeReport_lockLost_defers m (by rw [run]; exact defers.2)]
      exact work.faultDeferred (deferFault_spec u .lockLost m).1
  · rw [if_neg claimed, deliver_nil]
    exact ⟨fun _ => rfl, fun _ _ => rfl, fun holds => absurd holds.1 claimed, fun defers => absurd defers.1 claimed⟩

/-! ### LOCK and UNLOCK by a STATUS -/

theorem statusOf_exchange {s : State} {m : MachineId} {chars : List Byte} {p : StatusPayload} (status : statusOf s m chars = some p) :
    ∃ x, (s.port m).exchange = some x := by
  cases exchange : (s.port m).exchange with
  | some x => exact ⟨x, rfl⟩
  | none => simp [statusOf, replyClass, Port.received, exchange] at status

theorem statusError_update {s : State} {m : MachineId} {p : StatusPayload} {e : Int} (error : statusError s m p = some e) :
    ∃ n, statusPosition (modeOf s m) p = some n := by
  unfold statusError at error
  split at error
  · rename_i n update
    exact ⟨n, update⟩
  · cases error

theorem servoError_released {s : State} {m : MachineId} {position : Option Nat} {e : Int} (error : servoError s m position = some e) :
    s.stopAsserted = false := by
  unfold servoError at error
  split at error
  · cases error
  · rename_i test
    rw [Bool.not_eq_true, Bool.or_eq_false_iff] at test
    exact test.1

/-- A change of the control state by an evaluation raises MACHINE_STATE (R94). -/
theorem countLock_noticed {s : State} {m : MachineId} {e : Int}
    (changed : ((countLock s m e).1.machine m).control ≠ (s.machine m).control) :
    Noticed (countLock s m e).1 (machineStateNotice (countLock s m e).1 m) := by
  unfold countLock becomeLocked becomeUnlocked at *
  split
  · rename_i chasing
    rw [chasing] at changed
    split
    · exact changeMachine_noticed s m _ (.inl (by rw [chasing]; simp))
    · rename_i stays
      dsimp only at changed
      rw [if_neg stays] at changed
      dsimp only at changed
      rw [updateMachine, State.setMachine_machine] at changed
      exact absurd chasing changed
  · rename_i locked
    rw [locked] at changed
    split
    · exact changeMachine_noticed s m _ (.inl (by rw [locked]; simp))
    · rename_i stays
      dsimp only at changed
      rw [if_neg stays] at changed
      dsimp only at changed
      rw [updateMachine, State.setMachine_machine] at changed
      exact absurd locked changed
  all_goals
    rename_i other
    rw [other] at changed
    exact absurd other changed

/-- A STATUS whose evaluation has an error, of a machine that chases: `u` is the state when the run takes the reports. -/
structure StatusEvaluated (s u : State) (m : MachineId) (p : StatusPayload) (e : Int) (reports : List RunReport) (r : MachineRec) :
    Prop where
  taken : takeStatus s m p = deliver (u, reports)
  work : MachinesWork s u
  machine : u.machine m = { r with lastSpeed := (u.machine m).lastSpeed }
  noticed : r.control ≠ (s.machine m).control → Noticed u (machineStateNotice u m)

theorem takeStatus_evaluated {s : State} {m : MachineId} {chars : List Byte} {p : StatusPayload} {e : Int}
    (status : statusOf s m chars = some p) (error : statusError s m p = some e) (still : (s.machine m).control ≠ .locating)
    {n : Nat} (update : statusPosition (modeOf s m) p = some n) {reports : List RunReport} {r : MachineRec}
    (evaluated : ∀ (v : State) (position : Option Nat), v.machine m = (s.machine m).updated p n →
      servoError v m position = some e → (tcEvaluation v m position).2 = reports
        ∧ (tcEvaluation v m position).1.machine m = { r with lastSpeed := ((tcEvaluation v m position).1.machine m).lastSpeed }) :
    ∃ u, StatusEvaluated s u m p e reports r := by
  obtain ⟨x, exchange⟩ := statusOf_exchange status
  have taken := takeStatus_updated exchange still update
  rw [statusError_updated exchange still update] at error
  have work := statusUpdated_work (s := s) (m := m) (x := x) (p := p) (n := n)
  have machine := statusUpdated_machine (s := s) (m := m) (x := x) (p := p) (n := n)
  generalize statusUpdated s m x p n = v at *
  obtain ⟨made, record⟩ := evaluated v (positionAt s x.field) machine error
  obtain ⟨-, -, workEval⟩ := tcEvaluation_acts (s := v) (m := m) (position := positionAt s x.field) (p := n)
    (congrArg MachineRec.position machine)
  have noticed : r.control ≠ (s.machine m).control → Noticed (tcEvaluation v m (positionAt s x.field)).1
      (machineStateNotice (tcEvaluation v m (positionAt s x.field)).1 m) := by
    intro changed
    have placed := servoPlace_record v m e
    rw [tcEvaluation_some error] at record ⊢
    refine countLock_noticed ?_
    rw [record, placed, machine]
    exact changed
  have released : (tcEvaluation v m (positionAt s x.field)).1.stopAsserted = false :=
    (congrArg (fun c : CueUnit => c.stop == .asserted) workEval.only.cues).trans (servoError_released error)
  rw [deliver_statusLink, made] at taken
  have restored := statusLink_restored (tcEvaluation v m (positionAt s x.field)).1 m
  refine ⟨_, taken, (work.trans workEval).trans restored.work, ?_, fun changed => restored.noticed released (noticed changed)⟩
  rw [restored.machine, record]

/-- Settles O40: the lock by its count, the unlock by its count, and the unlock by the stale count. -/
theorem lockFollowsEvaluations : Obligations.LockFollowsEvaluations := by
  intro s m holds defers lockLost
  refine ⟨fun chars p e status error control inside count => ?lock, fun chars p e status error control outside count => ?unlock,
    fun waits configured still none control count => ?stale⟩
  case lock =>
    obtain ⟨n, update⟩ := statusError_update error
    have locks : locksAt (s.machine m) e = true := by simp [locksAt, inLockWindow, control, inside, count]
    obtain ⟨u, evaluated⟩ := takeStatus_evaluated (reports := [])
      (r := { (s.machine m).updated p n with control := .locked, inWindow := 0, outWindow := 0 }) status error
      (by rw [control]; decide) update (fun v position machine error' => by
        obtain ⟨reports, record⟩ := tcEvaluation_chasing error' (by rw [machine]; exact control)
        refine ⟨reports, ?_⟩
        rw [record, machine]
        simp [MachineRec.updated, inside, count])
    have exec : exec (.lock m chars) s = .next (takeStatus s m p) := by
      show execLock m chars s = _
      unfold execLock
      rw [status]
      dsimp only
      rw [error]
      exact if_pos locks
    have taken := evaluated.taken
    rw [deliver_nil] at taken
    rw [taken] at exec
    refine ⟨u, exec, (execStatusReply_of status).trans (congrArg Host.Outcome.next taken), ?_, ?_, ?_, evaluated.noticed ?_⟩
    · rw [evaluated.machine]
    · rw [evaluated.machine]
    · rw [evaluated.machine]
    · rw [control]; simp
  case unlock =>
    obtain ⟨n, update⟩ := statusError_update error
    have unlocks : statusUnlocks s m p = true := by
      unfold statusUnlocks
      rw [error]
      simp [unlocksAt, outOfLockWindow, control, outside, count]
    obtain ⟨u, evaluated⟩ := takeStatus_evaluated (reports := if (s.machine m).claimed then [.lockLost m] else [])
      (r := { (s.machine m).updated p n with control := .chasing, inWindow := 0, outWindow := 0 }) status error
      (by rw [control]; decide) update (fun v position machine error' => by
        obtain ⟨reports, record⟩ := tcEvaluation_locked error' (by rw [machine]; exact control)
        refine ⟨?_, ?_⟩
        · rw [reports, machine]
          simp [MachineRec.updated, outside, count]
        · rw [record, machine]
          simp [MachineRec.updated, outside, count])
    have exec : exec (.unlock m (.status chars)) s = .next (takeStatus s m p) := by
      show execUnlock m (.status chars) s = _
      unfold execUnlock
      dsimp only
      rw [status]
      exact if_pos unlocks
    have lost := deliver_lockLost (m := m) evaluated.work
    rw [← evaluated.taken] at lost
    have noticed := evaluated.noticed (by rw [control]; simp)
    have machine := evaluated.machine
    refine ⟨_, exec, execStatusReply_of status, fun goes => ?_, fun goes other => ?_, lost.holds, lost.defers⟩
    · rw [lost.frame goes]
      refine ⟨?_, ?_, ?_, noticed⟩
      · exact (congrArg MachineRec.control machine)
      · exact (congrArg MachineRec.inWindow machine)
      · exact (congrArg MachineRec.outWindow machine)
    · rw [lost.quiet goes other]
      exact evaluated.work.only.run
  case stale =>
    have unlocks : unlocksStale s m = true := unlocksStale_iff.2 ⟨configured, still, none, control, by omega⟩
    have field := machineField_stale (s := { s with waiting := s.waiting.erase (.machine m) }) configured still none
    have taken : exec (.unlock m .stale) s
        = .next (deliver (becomeUnlocked (updateMachine { s with waiting := s.waiting.erase (.machine m) } m MachineRec.onStale) m)) := by
      have test : (s.waiting.contains (.machine m) && unlocksStale s m) = true := by rw [waits, unlocks]; rfl
      refine (if_pos test).trans ?_
      rw [takeField_waiting waits]
      exact congrArg Host.Outcome.next (field.trans (if_pos unlocks))
    have stale : (updateMachine { s with waiting := s.waiting.erase (.machine m) } m MachineRec.onStale).machine m
        = { s.machine m with quality := .stale, stale := 8 } := by
      refine (State.setMachine_machine _ m _).trans ?_
      have full : min 8 ((s.machine m).stale + 1) = 8 := by omega
      show { s.machine m with quality := .stale, stale := min 8 ((s.machine m).stale + 1) } = _
      rw [full]
    have work : MachinesWork { s with waiting := s.waiting.erase (.machine m) }
        (updateMachine { s with waiting := s.waiting.erase (.machine m) } m MachineRec.onStale) := .setMachine rfl
    have others : OthersKept s (updateMachine { s with waiting := s.waiting.erase (.machine m) } m MachineRec.onStale) m :=
      fun n hn => ⟨rfl, State.setMachine_machine_other _ _ hn⟩
    have ports : (updateMachine { s with waiting := s.waiting.erase (.machine m) } m MachineRec.onStale).ports = s.ports := rfl
    generalize updateMachine { s with waiting := s.waiting.erase (.machine m) } m MachineRec.onStale = v at *
    have unlocked := changeMachine_machine v m (fun x => { x.countsCleared with control := .chasing })
    have noticed := changeMachine_noticed v m (fun x => { x.countsCleared with control := .chasing })
      (.inl (by rw [stale]; show ControlState.chasing ≠ (s.machine m).control; rw [control]; simp))
    have work' : MachinesWork v (changeMachine v m (fun x => { x.countsCleared with control := .chasing })) := .changeMachine rfl
    have ports' : (changeMachine v m (fun x => { x.countsCleared with control := .chasing })).ports = v.ports := changeMachine_ports ..
    have others' : OthersKept s (changeMachine v m (fun x => { x.countsCleared with control := .chasing })) m := fun n hn =>
      ⟨(changeMachine_port ..).trans (others n hn).1, (changeMachine_machine_other _ _ hn).trans (others n hn).2⟩
    unfold becomeUnlocked at taken
    generalize changeMachine v m (fun x => { x.countsCleared with control := .chasing }) = u at *
    have claim : (v.machine m).claimed = (s.machine m).claimed := by rw [stale]
    rw [claim] at taken
    have lost := deliver_lockLost (m := m) (work.trans work')
    change LockLost { s with waiting := s.waiting.erase (.machine m) } u (deliver (u, if (s.machine m).claimed then [.lockLost m] else [])) m at lost
    generalize deliver (u, if (s.machine m).claimed then [.lockLost m] else []) = t at *
    refine ⟨t, taken, fun goes => ?_, fun goes other => ?_, lost.holds, lost.defers⟩
    · have frame := lost.frame goes
      have machines : t.machines = u.machines := by rw [frame]
      have same : t.ports = u.ports := by rw [frame]
      have console : t.console = u.console := by rw [frame]
      have record : t.machine m = u.machine m := by unfold State.machine; rw [machines]
      refine ⟨?_, ?_, fun n hn => ?_, same.trans (ports'.trans ports), ?_⟩
      · rw [record, unlocked, stale]
        rfl
      · rw [frame]; exact noticed
      · obtain ⟨port, machine⟩ := others' n hn
        rw [frame]
        exact ⟨port, machine⟩
      · have only := (work.trans work').only.1
        rw [ports', ports] at only
        rw [machines, console]
        exact frame.trans (congrArg (fun v : State => { v with run := t.run }) only)
    · rw [lost.quiet goes other]
      exact (work.trans work').only.run

end Sys2Proof.Machine
end

section
/-! The statement on STATUS_REPLY (R77, R79, R82, R88, R103, R104): what every part of a STATUS keeps of what it reported, and the
parking test. -/

namespace Sys2Proof.Machine

/-! ### What the parts of a STATUS keep of what it reported -/

/-- The report and the estimate of a machine, and the error count and CTL count of its port, are kept. -/
structure ReportKept (s t : State) (m : MachineId) : Prop where
  transport : (t.machine m).transport = (s.machine m).transport
  parked : (t.machine m).parkedFlag = (s.machine m).parkedFlag
  position : (t.machine m).position = (s.machine m).position
  quality : (t.machine m).quality = (s.machine m).quality
  errors : (t.port m).errors = (s.port m).errors
  anchor : (t.port m).ctlAnchor = (s.port m).ctlAnchor
  counter : (t.port m).ctlCounter = (s.port m).ctlCounter
  tally : (t.port m).ctlTally = (s.port m).ctlTally

namespace ReportKept

theorem refl (s : State) (m : MachineId) : ReportKept s s m := ⟨rfl, rfl, rfl, rfl, rfl, rfl, rfl, rfl⟩

theorem trans {s t u : State} {m : MachineId} (h : ReportKept s t m) (k : ReportKept t u m) : ReportKept s u m :=
  ⟨k.transport.trans h.transport, k.parked.trans h.parked, k.position.trans h.position, k.quality.trans h.quality,
    k.errors.trans h.errors, k.anchor.trans h.anchor, k.counter.trans h.counter, k.tally.trans h.tally⟩

/-- A record and a port of which other fields have changed. -/
theorem of_eq {s t : State} {m : MachineId} {r : MachineRec} {p : Port} (machine : t.machine m = r) (port : t.port m = p)
    (record : r.transport = (s.machine m).transport ∧ r.parkedFlag = (s.machine m).parkedFlag
      ∧ r.position = (s.machine m).position ∧ r.quality = (s.machine m).quality)
    (count : p.errors = (s.port m).errors ∧ p.ctlAnchor = (s.port m).ctlAnchor ∧ p.ctlCounter = (s.port m).ctlCounter
      ∧ p.ctlTally = (s.port m).ctlTally) : ReportKept s t m := by
  subst machine
  subst port
  exact ⟨record.1, record.2.1, record.2.2.1, record.2.2.2, count.1, count.2.1, count.2.2.1, count.2.2.2⟩

theorem changeMachine {s : State} {m : MachineId} {f : MachineRec → MachineRec}
    (record : (f (s.machine m)).transport = (s.machine m).transport ∧ (f (s.machine m)).parkedFlag = (s.machine m).parkedFlag
      ∧ (f (s.machine m)).position = (s.machine m).position ∧ (f (s.machine m)).quality = (s.machine m).quality) :
    ReportKept s (changeMachine s m f) m :=
  .of_eq (changeMachine_machine s m f) (changeMachine_port s m m f) record ⟨rfl, rfl, rfl, rfl⟩

theorem updateMachine {s : State} {m : MachineId} {f : MachineRec → MachineRec}
    (record : (f (s.machine m)).transport = (s.machine m).transport ∧ (f (s.machine m)).parkedFlag = (s.machine m).parkedFlag
      ∧ (f (s.machine m)).position = (s.machine m).position ∧ (f (s.machine m)).quality = (s.machine m).quality) :
    ReportKept s (updateMachine s m f) m :=
  .of_eq (State.setMachine_machine s m _) rfl record ⟨rfl, rfl, rfl, rfl⟩

theorem setPort {s : State} {m : MachineId} {p : Port} (count : p.errors = (s.port m).errors ∧ p.ctlAnchor = (s.port m).ctlAnchor
    ∧ p.ctlCounter = (s.port m).ctlCounter ∧ p.ctlTally = (s.port m).ctlTally) : ReportKept s (s.setPort m p) m :=
  .of_eq rfl (State.setPort_port s m p) ⟨rfl, rfl, rfl, rfl⟩ count

/-- A hold or a deferred fault keeps what was reported. -/
theorem deliver (x : State × List RunReport) (m : MachineId) : ReportKept x.1 (deliver x) m := by
  have units := deliver_units x
  have held := deliver_held x m
  refine .of_eq rfl (units.port m).frame ⟨held.transport, units.parked m, held.position, held.quality⟩ ⟨rfl, rfl, rfl, rfl⟩

theorem of_restored {s u : State} {m : MachineId} (h : LinkRestored s u m) : ReportKept s u m :=
  .of_eq h.machine h.port ⟨rfl, rfl, rfl, rfl⟩ ⟨rfl, rfl, rfl, rfl⟩

end ReportKept

theorem failLocate_kept (s : State) (m : MachineId) (reason : LocateReason) : ReportKept s (failLocate s m reason).1 m := by
  unfold failLocate
  split
  · refine ReportKept.trans (t := changeMachine s m (fun x => { x with control := .free, locate := none }))
      (.changeMachine ⟨rfl, rfl, rfl, rfl⟩) ?_
    exact .of_eq (by rw [reportLocateFailure_machine]) (by rw [reportLocateFailure_port]) ⟨rfl, rfl, rfl, rfl⟩ ⟨rfl, rfl, rfl, rfl⟩
  · exact .refl s m

theorem locateMismatch_kept (s : State) (m : MachineId) (l : Locate) : ReportKept s (locateMismatch s m l).1 m := by
  unfold locateMismatch
  split
  · split
    · rename_i t placed
      obtain ⟨p, hp, rfl⟩ := placeMotion_spec placed
      obtain ⟨-, -, frame⟩ := Port.placeMotion_spec hp
      refine ReportKept.trans (t := s.setPort m p) (.setPort (by rw [frame]; exact ⟨rfl, rfl, rfl, rfl⟩)) ?_
      dsimp only
      exact .updateMachine ⟨rfl, rfl, rfl, rfl⟩
    · exact failLocate_kept s m _
  · exact failLocate_kept s m _

theorem parkOnTarget_kept (s : State) (m : MachineId) (l : Locate) (n : Nat) : ReportKept s (parkOnTarget s m l n) m := by
  have parked : ReportKept s (changeMachine s m (fun x => { x with control := .parked, locate := none })) m :=
    .changeMachine ⟨rfl, rfl, rfl, rfl⟩
  unfold parkOnTarget
  split
  · exact parked.trans (.of_eq rfl rfl ⟨rfl, rfl, rfl, rfl⟩ ⟨rfl, rfl, rfl, rfl⟩)
  · exact parked

theorem parkingTest_kept (s : State) (m : MachineId) (transport : Transport) (parked : Bool) (update : Option Nat) :
    ReportKept s (parkingTest s m transport parked update).1 m := by
  unfold parkingTest
  split
  · split
    · exact .refl s m
    split
    · exact failLocate_kept s m _
    split
    · exact .refl s m
    split
    · split
      · exact parkOnTarget_kept s m _ _
      · exact locateMismatch_kept s m _
    · exact locateMismatch_kept s m _
  · exact .refl s m

theorem acknowledgeLocate_kept (s : State) (m : MachineId) : ReportKept s (acknowledgeLocate s m) m := by
  unfold acknowledgeLocate
  split
  · exact .updateMachine ⟨rfl, rfl, rfl, rfl⟩
  · exact .refl s m

theorem answerOnLine_kept (s : State) (m : MachineId) : ReportKept s (answerOnLine s m) m := by
  have removed : ReportKept s (s.setPort m (s.port m).removeOnLine) m := by
    refine .setPort ?_
    unfold Port.removeOnLine
    split <;> exact ⟨rfl, rfl, rfl, rfl⟩
  unfold answerOnLine
  split
  · split
    · exact removed.trans (acknowledgeLocate_kept _ m)
    · exact removed
  · exact .refl s m

theorem countLock_kept (s : State) (m : MachineId) (e : Int) : ReportKept s (countLock s m e).1 m := by
  unfold countLock becomeLocked becomeUnlocked
  split
  · split
    · dsimp only; exact .changeMachine ⟨rfl, rfl, rfl, rfl⟩
    · dsimp only; exact .updateMachine ⟨rfl, rfl, rfl, rfl⟩
  · split
    · dsimp only; exact .changeMachine ⟨rfl, rfl, rfl, rfl⟩
    · dsimp only; exact .updateMachine ⟨rfl, rfl, rfl, rfl⟩
  · exact .refl s m
  · exact .refl s m
  · exact .refl s m

theorem statusServo_kept (s : State) (m : MachineId) (update : Option Nat) : ReportKept s (statusServo s m update).1 m := by
  unfold statusServo
  split
  · cases error : servoError s m (exchangePosition s m) with
    | none => rw [tcEvaluation_none error]; exact .refl s m
    | some e =>
      rw [tcEvaluation_some error]
      have placed : ReportKept s (servoPlace s m e) m :=
        .of_eq (servoPlace_record s m e) ((tryMotion_units s m _ _).port m).frame ⟨rfl, rfl, rfl, rfl⟩ ⟨rfl, rfl, rfl, rfl⟩
      exact placed.trans (countLock_kept _ m e)
  · exact .refl s m

/-! ### The parts of a STATUS in order -/

/-- The state in which the parking test is made (R77 step 2, R88). -/
def statusBegun (s : State) (m : MachineId) (p : StatusPayload) : State :=
  applyStatus (s.setPort m (s.port m).completed) m p (tcUpdateOf s m p)

/-- The parking test that a STATUS makes. -/
def statusParked (s : State) (m : MachineId) (p : StatusPayload) : State × List RunReport :=
  parkingTest (statusBegun s m p) m p.transport p.parked (tcUpdateOf s m p)

theorem statusApplied_eq (s : State) (m : MachineId) (p : StatusPayload) :
    statusApplied s m p = (answerOnLine (statusParked s m p).1 m, (statusParked s m p).2) := rfl

theorem takeStatus_eq (s : State) (m : MachineId) (p : StatusPayload) :
    takeStatus s m p
      = deliver ((statusLink (statusServo (statusApplied s m p).1 m (tcUpdateOf s m p)).1 m).1,
          (statusApplied s m p).2 ++ (statusServo (statusApplied s m p).1 m (tcUpdateOf s m p)).2) := by
  unfold takeStatus
  dsimp only
  exact deliver_statusLink ..

section begun

variable {s : State} {m : MachineId} {x : Exchange} {p : StatusPayload}

/-- The record and the port once a STATUS is applied; `n` is the position it gives, if it gives one. -/
theorem statusBegun_update {n : Nat} (update : statusPosition (modeOf s m) p = some n) :
    statusBegun s m p = (s.setPort m ((s.port m).completed.anchored n)).setMachine m ((s.machine m).updated p n) := by
  unfold statusBegun applyStatus tcUpdateOf
  rw [update]
  dsimp only
  rw [State.setPort_twice, State.setPort_port]
  rfl

theorem statusBegun_none (none : statusPosition (modeOf s m) p = none) :
    statusBegun s m p = (s.setPort m (s.port m).completed).setMachine m ((s.machine m).reported p) := by
  unfold statusBegun applyStatus tcUpdateOf
  rw [none]
  rfl

/-- What a STATUS leaves of the report, the estimate and the CTL count. -/
structure StatusShown (s t : State) (m : MachineId) (p : StatusPayload) : Prop where
  errors : (t.port m).errors = 0
  transport : (t.machine m).transport = some p.transport
  parked : (t.machine m).parkedFlag = p.parked
  given : ∀ n, statusPosition (modeOf s m) p = some n →
    (t.machine m).position = some n ∧ (t.machine m).quality = .tc ∧ (t.port m).ctlAnchor = some n
      ∧ (t.port m).ctlCounter = 0 ∧ (t.port m).ctlTally = 0
  kept : statusPosition (modeOf s m) p = none →
    (t.machine m).position = (s.machine m).position ∧ (t.machine m).quality = (s.machine m).quality
      ∧ (t.port m).ctlAnchor = (s.port m).ctlAnchor ∧ (t.port m).ctlCounter = (s.port m).ctlCounter
      ∧ (t.port m).ctlTally = (s.port m).ctlTally

theorem StatusShown.later {t u : State} (h : StatusShown s t m p) (k : ReportKept t u m) : StatusShown s u m p where
  errors := k.errors.trans h.errors
  transport := k.transport.trans h.transport
  parked := k.parked.trans h.parked
  given n update := by
    rw [k.position, k.quality, k.anchor, k.counter, k.tally]
    exact h.given n update
  kept none := by
    rw [k.position, k.quality, k.anchor, k.counter, k.tally]
    exact h.kept none

theorem statusBegun_shown (s : State) (m : MachineId) (p : StatusPayload) : StatusShown s (statusBegun s m p) m p := by
  cases update : statusPosition (modeOf s m) p with
  | some n =>
    rw [statusBegun_update update]
    have machine := State.setMachine_machine (s.setPort m ((s.port m).completed.anchored n)) m ((s.machine m).updated p n)
    have port : ((s.setPort m ((s.port m).completed.anchored n)).setMachine m ((s.machine m).updated p n)).port m
        = (s.port m).completed.anchored n := State.setPort_port ..
    refine ⟨by rw [port]; rfl, by rw [machine]; rfl, by rw [machine]; rfl, fun k hk => ?_, fun none => ?_⟩
    · rw [update] at hk
      cases hk
      rw [machine, port]
      exact ⟨rfl, rfl, rfl, rfl, rfl⟩
    · rw [update] at none; cases none
  | none =>
    rw [statusBegun_none update]
    have machine := State.setMachine_machine (s.setPort m (s.port m).completed) m ((s.machine m).reported p)
    have port : ((s.setPort m (s.port m).completed).setMachine m ((s.machine m).reported p)).port m
        = (s.port m).completed := State.setPort_port ..
    refine ⟨by rw [port]; rfl, by rw [machine]; rfl, by rw [machine]; rfl, fun k hk => ?_, fun _ => ?_⟩
    · rw [update] at hk; cases hk
    · rw [machine, port]
      exact ⟨rfl, rfl, rfl, rfl, rfl⟩

/-- Every part of a STATUS keeps what it reported. -/
theorem takeStatus_shown (s : State) (m : MachineId) (p : StatusPayload) : StatusShown s (takeStatus s m p) m p := by
  have parked : ReportKept (statusBegun s m p) (statusParked s m p).1 m := parkingTest_kept _ m _ _ _
  have applied : ReportKept (statusBegun s m p) (statusApplied s m p).1 m := parked.trans (answerOnLine_kept _ m)
  have served := applied.trans (statusServo_kept (statusApplied s m p).1 m (tcUpdateOf s m p))
  rw [takeStatus_eq]
  have linked := served.trans (.of_restored (statusLink_restored _ m))
  generalize (statusLink (statusServo (statusApplied s m p).1 m (tcUpdateOf s m p)).1 m).1 = u at *
  exact (statusBegun_shown s m p).later (linked.trans (.deliver (u, _) m))

end begun

/-! ### The link once a STATUS has come (R79, R82) -/

theorem UnitsHeld.link {s t : State} (h : UnitsHeld s t) (m : MachineId) : t.link m = s.link m :=
  (congrArg Port.link (h.port m).frame).trans rfl

theorem statusBegun_link (s : State) (m : MachineId) (p : StatusPayload) : (statusBegun s m p).link m = s.link m := by
  cases update : statusPosition (modeOf s m) p with
  | some n =>
    rw [statusBegun_update update]
    exact (congrArg Port.link (State.setPort_port s m ((s.port m).completed.anchored n))).trans rfl
  | none =>
    rw [statusBegun_none update]
    exact (congrArg Port.link (State.setPort_port s m (s.port m).completed)).trans rfl

theorem placeMotion_link {s t : State} {m : MachineId} {r : DeckRequest} (placed : placeMotion s m r = .ok t) :
    t.link m = s.link m := by
  obtain ⟨q, hq, rfl⟩ := placeMotion_spec placed
  obtain ⟨-, -, frame⟩ := Port.placeMotion_spec hq
  rw [State.setPort_link, frame]
  rfl

theorem parkingTest_link (s : State) (m : MachineId) (transport : Transport) (parked : Bool) (update : Option Nat) :
    (parkingTest s m transport parked update).1.link m = s.link m := by
  have fails (reason : LocateReason) : (failLocate s m reason).1.link m = s.link m := (failLocate_units s m reason).link m
  have mismatch (l : Locate) : (locateMismatch s m l).1.link m = s.link m := by
    unfold locateMismatch
    split
    · split
      · rename_i t placed
        show t.link m = s.link m
        exact placeMotion_link placed
      · exact fails _
    · exact fails _
  have parks (l : Locate) (n : Nat) : (parkOnTarget s m l n).link m = s.link m := by
    unfold parkOnTarget
    split <;> exact congrArg Port.link (changeMachine_port ..)
  unfold parkingTest
  split
  · split
    · rfl
    split
    · exact fails _
    split
    · rfl
    split
    · split
      · exact parks _ _
      · exact mismatch _
    · exact mismatch _
  · rfl

theorem answerOnLine_link (s : State) (m : MachineId) : (answerOnLine s m).link m = s.link m := by
  have removed : (s.setPort m (s.port m).removeOnLine).link m = s.link m := by
    rw [State.setPort_link]
    unfold Port.removeOnLine
    split <;> rfl
  unfold answerOnLine acknowledgeLocate
  split
  · split
    · split <;> exact removed
    · exact removed
  · rfl

theorem statusServo_link (s : State) (m : MachineId) (update : Option Nat) : (statusServo s m update).1.link m = s.link m := by
  unfold statusServo
  split
  · exact (congrArg Port.link (tcEvaluation_port s m _).frame).trans rfl
  · rfl

/-- A STATUS at a port that is not ABSENT leaves it ONLINE. -/
theorem takeStatus_online {s : State} {m : MachineId} (present : s.link m ≠ .absent) (p : StatusPayload) :
    (takeStatus s m p).link m = .online := by
  have applied : (statusApplied s m p).1.link m = s.link m :=
    (answerOnLine_link _ m).trans ((parkingTest_link _ m _ _ _).trans (statusBegun_link s m p))
  have served := (statusServo_link (statusApplied s m p).1 m (tcUpdateOf s m p)).trans applied
  have online := (statusLink_restored (statusServo (statusApplied s m p).1 m (tcUpdateOf s m p)).1 m).online
    (by rw [served]; exact present)
  rw [takeStatus_eq]
  generalize (statusLink (statusServo (statusApplied s m p).1 m (tcUpdateOf s m p)).1 m).1 = u at *
  exact ((deliver_units (u, _)).link m).trans online

end Sys2Proof.Machine
end

section
/-! The statement on STATUS_REPLY (R77, R88, R103, R104, R126): the parking test of a locate and its end. -/

namespace Sys2Proof.Machine

/-! ### The request on the line answered -/

theorem answerOnLine_work (s : State) (m : MachineId) :
    MachinesWork s (answerOnLine s m) ∧ (answerOnLine s m).console = s.console := by
  have removed : MachinesWork s (s.setPort m (s.port m).removeOnLine) := .setPort s m _
  unfold answerOnLine acknowledgeLocate
  split
  · split
    · split
      · exact ⟨removed.trans (.setMachine rfl), rfl⟩
      · exact ⟨removed, rfl⟩
    · exact ⟨removed, rfl⟩
  · exact ⟨.refl s, rfl⟩

theorem answerOnLine_machine_still {s : State} {m : MachineId} (still : (s.machine m).control ≠ .locating) :
    (answerOnLine s m).machine m = s.machine m := by
  unfold answerOnLine
  split
  · split
    · rw [acknowledgeLocate_still (s := s.setPort m (s.port m).removeOnLine) still]; rfl
    · rfl
  · rfl

/-- The answer to a LOCATE acknowledges its locate (R103). -/
theorem answerOnLine_machine_locating {s : State} {m : MachineId} {l : Locate} (control : (s.machine m).control = .locating)
    (locate : (s.machine m).locate = some l) :
    (answerOnLine s m).machine m = { s.machine m with
      locate := some { l with acknowledged := l.acknowledged || (s.port m).onLineRequest.any (fun y => y.request.isLocate) } } := by
  have same : ({ s.machine m with locate := some { l with acknowledged := l.acknowledged || false } } : MachineRec) = s.machine m := by
    rw [Bool.or_false, ← locate]
  unfold answerOnLine
  cases request : (s.port m).onLineRequest with
  | none =>
    dsimp only [Option.any]
    rw [same]
  | some q =>
    dsimp only [Option.any]
    cases isLocate : q.request.isLocate with
    | false =>
      rw [same]
      rfl
    | true =>
      rw [if_pos rfl, acknowledgeLocate]
      rw [show ((s.setPort m (s.port m).removeOnLine).machine m).control = .locating from control,
        show ((s.setPort m (s.port m).removeOnLine).machine m).locate = some l from locate, Bool.or_true]
      exact State.setMachine_machine _ m _

/-! ### The rest of a STATUS once the parking test is made -/

/-- The state when the run takes the reports; `v` is the state that the parking test leaves. -/
def statusEnded (v : State) (m : MachineId) : State := (statusLink (answerOnLine v m) m).1

theorem statusEnded_restored (v : State) (m : MachineId) : LinkRestored (answerOnLine v m) (statusEnded v m) m :=
  statusLink_restored _ m

theorem statusEnded_work (v : State) (m : MachineId) : MachinesWork v (statusEnded v m) ∧ NoticesKept v (statusEnded v m) := by
  obtain ⟨work, console⟩ := answerOnLine_work v m
  have restored := statusEnded_restored v m
  exact ⟨work.trans restored.work, (NoticesKept.of_console console).trans restored.notices⟩

theorem statusEnded_still {v : State} {m : MachineId} (still : (v.machine m).control ≠ .locating) :
    (statusEnded v m).machine m = { v.machine m with lastSpeed := ((statusEnded v m).machine m).lastSpeed } := by
  rw [(statusEnded_restored v m).machine, answerOnLine_machine_still still]

theorem statusEnded_locating {v : State} {m : MachineId} {l : Locate} (control : (v.machine m).control = .locating)
    (locate : (v.machine m).locate = some l) :
    ((statusEnded v m).machine m).control = .locating ∧ ((statusEnded v m).machine m).locate
      = some { l with acknowledged := l.acknowledged || (v.port m).onLineRequest.any (fun y => y.request.isLocate) } := by
  rw [(statusEnded_restored v m).machine, answerOnLine_machine_locating control locate]
  exact ⟨control, rfl⟩

theorem statusServo_quiet {s : State} {m : MachineId} (free : ¬ ((s.machine m).control = .chasing ∨ (s.machine m).control = .locked))
    (update : Option Nat) : statusServo s m update = (s, []) := by
  unfold statusServo
  split
  · exact tcEvaluation_none (servoError_none (.inl fun h => free h.2))
  · rfl

theorem answerOnLine_control (v : State) (m : MachineId) : ((answerOnLine v m).machine m).control = (v.machine m).control := by
  by_cases control : (v.machine m).control = .locating
  · cases locate : (v.machine m).locate with
    | some l => rw [answerOnLine_machine_locating control locate]
    | none =>
      have idle : acknowledgeLocate (v.setPort m (v.port m).removeOnLine) m = v.setPort m (v.port m).removeOnLine := by
        unfold acknowledgeLocate
        split
        · rename_i h
          rw [show ((v.setPort m (v.port m).removeOnLine).machine m).locate = none from locate] at h
          cases h
        · rfl
      unfold answerOnLine
      rw [idle]
      split
      · split <;> rfl
      · rfl
  · rw [answerOnLine_machine_still control]

theorem answerOnLine_idle {v : State} {m : MachineId} (nothing : (v.port m).onLineRequest = none) : answerOnLine v m = v := by
  unfold answerOnLine
  rw [nothing]

/-- Of a machine that does not chase, a STATUS is the parking test and the rest. -/
theorem takeStatus_unchased {s : State} {m : MachineId} {p : StatusPayload}
    (free : ¬ (((statusParked s m p).1.machine m).control = .chasing ∨ ((statusParked s m p).1.machine m).control = .locked)) :
    takeStatus s m p = deliver (statusEnded (statusParked s m p).1 m, (statusParked s m p).2) := by
  rw [takeStatus_eq, statusApplied_eq]
  dsimp only
  rw [statusServo_quiet (by rw [answerOnLine_control]; exact free), List.append_nil]
  rfl

/-! ### The end of a failed locate (R104, R126) -/

/-- What the failure of a locate by the deck leaves. -/
structure LocateEnded (s t : State) (m : MachineId) (l : Locate) (reason : LocateReason) : Prop where
  free : (t.machine m).control = .free ∧ (t.machine m).locate = none
  console : l.owner = .console → Noticed t (.locateFailed m (machineLabel s m l.target) reason) ∧ t.run = s.run
  run : l.owner = .run → s.run.phase = .cueing → t.run.phase = .held ∧ t.run.holdCause = some .cueFail

theorem failLocate_ended {s : State} {m : MachineId} {l : Locate} {reason : LocateReason} (control : (s.machine m).control = .locating)
    (locate : (s.machine m).locate = some l) (effect : locateEffect reason m = .hold .cueFail (some m)) :
    LocateEnded s (deliver (statusEnded (failLocate s m reason).1 m, (failLocate s m reason).2)) m l reason := by
  have gone := locateGone_machine s m
  have work := locateGone_work s m
  cases owner : l.owner with
  | console =>
    rw [failLocate_console reason control locate owner, deliver_nil]
    dsimp only
    have noticed := raiseNotice_noticed (locateGone s m) (.locateFailed m (machineLabel s m l.target) reason)
    have record : (raiseNotice (locateGone s m) (.locateFailed m (machineLabel s m l.target) reason)).machine m
      = { s.machine m with control := .free, locate := none } := gone
    have run : (raiseNotice (locateGone s m) (.locateFailed m (machineLabel s m l.target) reason)).run = s.run := work.only.run
    generalize raiseNotice (locateGone s m) (.locateFailed m (machineLabel s m l.target) reason) = v at *
    obtain ⟨worked, notices⟩ := statusEnded_work v m
    have machine := statusEnded_still (v := v) (m := m) (by rw [record]; simp)
    refine ⟨⟨?_, ?_⟩, fun _ => ⟨notices.noticed _ rfl noticed, worked.only.run.trans run⟩, fun h => by rw [owner] at h; cases h⟩
    · rw [machine, record]
    · rw [machine, record]
  | run =>
    rw [failLocate_run reason control locate owner]
    dsimp only
    have run := work.only.run
    generalize locateGone s m = v at *
    obtain ⟨worked, -⟩ := statusEnded_work v m
    have machine := statusEnded_still (v := v) (m := m) (by rw [gone]; simp)
    have runs : (statusEnded v m).run = s.run := worked.only.run.trans run
    generalize statusEnded v m = u at *
    have reported := takeReport_locateFailed (s := u) m effect
    have units := takeReport_units u (.locateFailed m reason)
    refine ⟨?_, (fun h => by rw [owner] at h; cases h), fun _ cueing => ?_⟩
    · rcases units.motion m with ⟨c, k⟩ | ended
      · show ((takeReport u (.locateFailed m reason)).machine m).control = _ ∧ _
        refine ⟨?_, ?_⟩
        · rw [c, machine, gone]
        · exact k.trans (by rw [machine, gone])
      · exact ended
    · show (takeReport u (.locateFailed m reason)).run.phase = _ ∧ _
      have held := reported.1 (by rw [runs]; exact cueing)
      have taken := holdRun_run (s := u) (by rw [runs, cueing]; rfl) .cueFail (some m)
      refine ⟨?_, ?_⟩
      · rw [held]; exact taken.1
      · exact (congrArg (fun v : State => v.run.holdCause) held).trans taken.2.1

/-! ### The state in which the parking test is made -/

/-- What the parking test finds of the machine and its port. -/
structure StatusBegun (s a : State) (m : MachineId) : Prop where
  work : MachinesWork s a
  control : (a.machine m).control = (s.machine m).control
  locate : (a.machine m).locate = (s.machine m).locate
  params : (a.machine m).params = (s.machine m).params
  link : a.link m = s.link m
  queue : (a.port m).queue = (s.port m).queue
  exchange : (a.port m).exchange = (s.port m).completed.exchange

theorem statusBegun_spec (s : State) (m : MachineId) (p : StatusPayload) : StatusBegun s (statusBegun s m p) m := by
  cases update : statusPosition (modeOf s m) p with
  | some n =>
    have machine := State.setMachine_machine (s.setPort m ((s.port m).completed.anchored n)) m ((s.machine m).updated p n)
    have port : ((s.setPort m ((s.port m).completed.anchored n)).setMachine m ((s.machine m).updated p n)).port m
        = (s.port m).completed.anchored n := State.setPort_port ..
    refine ⟨?_, ?_, ?_, ?_, statusBegun_link s m p, ?_, ?_⟩
    all_goals rw [statusBegun_update update]
    · exact (MachinesWork.setPort s m _).trans (.setMachine rfl)
    · rw [machine]; rfl
    · rw [machine]; rfl
    · rw [machine]; rfl
    · rw [port]; rfl
    · rw [port]; rfl
  | none =>
    have machine := State.setMachine_machine (s.setPort m (s.port m).completed) m ((s.machine m).reported p)
    have port : ((s.setPort m (s.port m).completed).setMachine m ((s.machine m).reported p)).port m
        = (s.port m).completed := State.setPort_port ..
    refine ⟨?_, ?_, ?_, ?_, statusBegun_link s m p, ?_, ?_⟩
    all_goals rw [statusBegun_none update]
    · exact (MachinesWork.setPort s m _).trans (.setMachine rfl)
    · rw [machine]; rfl
    · rw [machine]; rfl
    · rw [machine]; rfl
    · rw [port]; rfl
    · rw [port]

namespace StatusBegun

variable {s a : State} {m : MachineId} (h : StatusBegun s a m)
include h

theorem mode : modeOf a m = modeOf s m := congrArg MachineParams.mode h.params

theorem label (position : Nat) : machineLabel a m position = machineLabel s m position := by
  unfold machineLabel
  rw [h.mode]

theorem day : dayOf a m = dayOf s m := congrArg LabelMode.day h.mode

theorem takes : TakesMotion a m ↔ TakesMotion s m := by
  unfold TakesMotion
  rw [h.link, h.queue]

theorem onLineRequest {x : Exchange} (exchange : (s.port m).exchange = some x) :
    (a.port m).onLineRequest = if x.onLine then (s.port m).queue.head? else none := by
  have here : (a.port m).exchange = some { x with progress := .completed false } := by
    rw [h.exchange, Port.completed_of exchange]
  unfold Port.onLineRequest Port.lineHead Port.headOnLine
  rw [here, h.queue]
  cases x.onLine with
  | false => rfl
  | true => cases (s.port m).queue <;> rfl

/-- The failure of a locate, told of the state before the STATUS. -/
theorem ended {t : State} {l : Locate} {reason : LocateReason} (e : LocateEnded a t m l reason) : LocateEnded s t m l reason := by
  have run := h.work.only.run
  refine ⟨e.free, fun owner => ?_, fun owner cueing => e.run owner (by rw [run]; exact cueing)⟩
  rw [← h.label, ← run]
  exact e.console owner

end StatusBegun

/-! ### The outcomes of the parking test (R103, R104) -/

section outcome

variable {a : State} {m : MachineId} {l : Locate} {transport : Transport} {parked : Bool} {update : Option Nat}

theorem parkingTest_waiting (control : (a.machine m).control = .locating) (locate : (a.machine m).locate = some l)
    (waits : l.acknowledged = false) : parkingTest a m transport parked update = (a, []) := by
  unfold parkingTest
  rw [control, locate]
  dsimp only
  rw [waits]
  rfl

theorem parkingTest_tapeOut (control : (a.machine m).control = .locating) (locate : (a.machine m).locate = some l)
    (acknowledged : l.acknowledged = true) (out : transport = .tapeOut) :
    parkingTest a m transport parked update = failLocate a m .tapeOut := by
  unfold parkingTest
  rw [control, locate]
  dsimp only
  rw [acknowledged, if_neg (by decide), if_pos out]

theorem parkingTest_moving (control : (a.machine m).control = .locating) (locate : (a.machine m).locate = some l)
    (acknowledged : l.acknowledged = true) (there : transport ≠ .tapeOut) (moving : parked = false) :
    parkingTest a m transport parked update = (a, []) := by
  unfold parkingTest
  rw [control, locate]
  dsimp only
  rw [acknowledged, if_neg (by decide), if_neg there, moving]
  rfl

theorem parkingTest_onTarget {n : Nat} (control : (a.machine m).control = .locating) (locate : (a.machine m).locate = some l)
    (acknowledged : l.acknowledged = true) (there : transport ≠ .tapeOut) (parks : parked = true) (given : update = some n)
    (near : (foldDiff (dayOf a m) n l.target).natAbs ≤ (a.machine m).params.lockWindow) :
    parkingTest a m transport parked update = (parkOnTarget a m l n, []) := by
  unfold parkingTest
  rw [control, locate]
  dsimp only
  rw [acknowledged, if_neg (by decide), if_neg there, parks, if_neg (by decide), given]
  exact if_pos near

theorem parkingTest_offTarget (control : (a.machine m).control = .locating) (locate : (a.machine m).locate = some l)
    (acknowledged : l.acknowledged = true) (there : transport ≠ .tapeOut) (parks : parked = true)
    (far : ¬ ∃ n, update = some n ∧ (foldDiff (dayOf a m) n l.target).natAbs ≤ (a.machine m).params.lockWindow) :
    parkingTest a m transport parked update = locateMismatch a m l := by
  unfold parkingTest
  rw [control, locate]
  dsimp only
  rw [acknowledged, if_neg (by decide), if_neg there, parks, if_neg (by decide)]
  split
  · rename_i n
    exact if_neg fun near => far ⟨n, rfl, near⟩
  · rfl

theorem locateMismatch_fails (last : 2 ≤ l.mismatches ∨ ¬ TakesMotion a m) : locateMismatch a m l = failLocate a m .mismatch := by
  unfold locateMismatch
  rcases last with third | full
  · exact if_neg (by omega)
  · obtain ⟨e, refused⟩ := placeMotion_refused full (.locate l.target)
    split
    · rw [refused]
    · rfl

/-- The state in which a mismatch has placed the LOCATE again. -/
def locateAgain (a : State) (m : MachineId) (l : Locate) (q : Port) : State :=
  updateMachine (a.setPort m q) m (fun x => { x with locate := some { l with acknowledged := false, mismatches := l.mismatches + 1 } })

theorem locateMismatch_again (few : l.mismatches < 2) {q : Port} (placed : (a.port m).placeMotion (.locate l.target) = .ok q) :
    locateMismatch a m l = (locateAgain a m l q, []) := by
  unfold locateMismatch placeMotion
  rw [if_pos (by omega), placed]
  rfl

end outcome

theorem DeckRequest.isMotion_of_isLocate {r : DeckRequest} (h : r.isLocate = true) : r.isMotion = true := by
  obtain ⟨target, rfl⟩ := DeckRequest.isLocate_iff.1 h
  rfl

/-- A LOCATE placed anew is not the request on the line: it takes the place of one that was, or stands behind what is. -/
theorem Port.placeMotion_unanswered {p q : Port} {r : DeckRequest} (placed : p.placeMotion r = .ok q) (held : p.lineHeld) :
    q.onLineRequest.any (fun y => y.request.isLocate) = false := by
  obtain ⟨online, -, -⟩ := Port.placeMotion_spec placed
  rw [Port.placeMotion_online online] at placed
  cases queue : p.queue with
  | nil =>
    have off : p.headOnLine = false := Bool.eq_false_iff.2 fun on => held on queue
    rw [queue] at placed
    have appended : ({ p with queue := [] ++ [⟨r, none⟩] } : Port) = q := Except.ok.inj placed
    rw [← appended]
    unfold Port.onLineRequest Port.lineHead
    rw [show ({ p with queue := [] ++ [⟨r, none⟩] } : Port).headOnLine = false from off]
    rfl
  | cons e rest =>
    have still (t : List QueuedRequest) (ht : t.head? = some e) (other : e.request.isMotion = false) :
        ({ p with queue := t } : Port).onLineRequest.any (fun y => y.request.isLocate) = false := by
      have notLocate : e.request.isLocate = false := Bool.eq_false_iff.2 fun locate =>
        Bool.eq_false_iff.1 other (DeckRequest.isMotion_of_isLocate locate)
      unfold Port.onLineRequest Port.lineHead
      cases t with
      | nil => cases ht
      | cons f t =>
        cases ht
        split
        · exact notLocate
        · rfl
    rw [queue] at placed
    cases head : e.request.isMotion with
    | true =>
      have replaced : ({ p.offLine with queue := replaceMotion ⟨r, none⟩ (e :: rest) } : Port) = q := by
        have any : (e :: rest).any (fun x => x.request.isMotion) = true := by rw [List.any_cons, head]; rfl
        rw [if_pos any, if_pos (by exact head)] at placed
        exact Except.ok.inj placed
      rw [← replaced]
      have off : ({ p.offLine with queue := replaceMotion ⟨r, none⟩ (e :: rest) } : Port).headOnLine = false := Port.offLine_headOnLine p
      unfold Port.onLineRequest Port.lineHead
      rw [off]
      rfl
    | false =>
      split at placed
      · rw [if_neg (by show ¬ e.request.isMotion = true; rw [head]; decide)] at placed
        have replaced := Except.ok.inj placed
        rw [← replaced]
        exact still _ (by simp [replaceMotion, head]) head
      · split at placed
        · have appended := Except.ok.inj placed
          rw [← appended]
          exact still _ rfl head
        · cases placed

theorem Port.placeMotion_headOnLine {p q : Port} {r : DeckRequest} (placed : p.placeMotion r = .ok q) (off : p.headOnLine = false) :
    q.headOnLine = false := by
  rw [Port.placeMotion_online (Port.placeMotion_spec placed).1] at placed
  split at placed
  · cases Except.ok.inj placed
    split
    · exact Port.offLine_headOnLine p
    · exact off
  · split at placed
    · cases Except.ok.inj placed
      exact off
    · cases placed

/-- The state after a LOCATE has been placed again. -/
theorem locateAgain_spec (a : State) (m : MachineId) (l : Locate) (q : Port) :
    MachinesWork a (locateAgain a m l q) ∧ (locateAgain a m l q).port m = q
      ∧ (locateAgain a m l q).machine m
          = { a.machine m with locate := some { l with acknowledged := false, mismatches := l.mismatches + 1 } } :=
  ⟨(MachinesWork.setPort a m q).trans (.setMachine rfl), State.setPort_port a m q, State.setMachine_machine _ m _⟩

theorem parkOnTarget_spec (a : State) (m : MachineId) (l : Locate) (n : Nat) :
    MachinesWork a (parkOnTarget a m l n)
      ∧ (parkOnTarget a m l n).machine m = { a.machine m with control := .parked, locate := none }
      ∧ (l.owner = .console → Noticed (parkOnTarget a m l n) (.locateDone m (machineLabel a m l.target) (machineLabel a m n))) := by
  have work : MachinesWork a (changeMachine a m (fun x => { x with control := .parked, locate := none })) := .changeMachine rfl
  have machine := changeMachine_machine a m (fun x => { x with control := .parked, locate := none })
  unfold parkOnTarget
  split
  · refine ⟨work.trans (.raiseNotice _ _), machine, fun _ => ?_⟩
    exact raiseNotice_noticed _ _
  · rename_i owner
    exact ⟨work, machine, fun h => by rw [owner] at h; cases h⟩

/-! ### A STATUS of a machine that is FREE, and of one that is LOCATING -/

section status

variable {s : State} {m : MachineId} {x : Exchange} {p : StatusPayload}

/-- At an ONLINE port the STATUS of a FREE machine is its report alone. -/
theorem takeStatus_free (exchange : (s.port m).exchange = some x) (free : (s.machine m).control = .free) (online : s.link m = .online) :
    ∃ q r, takeStatus s m p = (s.setPort m q).setMachine m r ∧ q.queue = ((s.port m).answered x).queue
      ∧ q.exchange = ((s.port m).answered x).exchange ∧ r.control = .free := by
  have still : (s.machine m).control ≠ .locating := by rw [free]; decide
  have quiet {q : Port} {r : MachineRec} (link : q.link = (s.port m).link) (control : r.control = (s.machine m).control)
      (applied : statusApplied s m p = ((s.setPort m q).setMachine m r, [])) :
      takeStatus s m p = (s.setPort m q).setMachine m r := by
    have servo := statusServo_quiet (s := (s.setPort m q).setMachine m r) (m := m)
      (by rw [State.setMachine_machine, control, free]; simp) (tcUpdateOf s m p)
    have stays : ((s.setPort m q).setMachine m r).link m = .online :=
      (congrArg Port.link (State.setPort_port s m q)).trans (link.trans online)
    rw [takeStatus_eq, applied]
    dsimp only
    rw [servo, statusLink_online stays]
    exact deliver_nil _
  cases update : statusPosition (modeOf s m) p with
  | some n =>
    exact ⟨((s.port m).answered x).anchored n, (s.machine m).updated p n,
      quiet rfl rfl (statusApplied_updated exchange still update), rfl, rfl, free⟩
  | none =>
    exact ⟨(s.port m).answered x, (s.machine m).reported p, quiet rfl rfl (statusApplied_reported exchange still update), rfl, rfl, free⟩

/-- A locate that the parking test keeps going: the answer to its LOCATE acknowledges it. -/
theorem takeStatus_keepsLocate {v : State} {l : Locate} (parked : statusParked s m p = (v, []))
    (control : (v.machine m).control = .locating) (locate : (v.machine m).locate = some l) (run : v.run = s.run) :
    ((takeStatus s m p).machine m).control = .locating ∧ ((takeStatus s m p).machine m).locate
        = some { l with acknowledged := l.acknowledged || (v.port m).onLineRequest.any (fun y => y.request.isLocate) }
      ∧ (takeStatus s m p).run = s.run := by
  rw [takeStatus_unchased (by rw [parked, control]; simp), parked, deliver_nil]
  obtain ⟨goes, located⟩ := statusEnded_locating control locate
  exact ⟨goes, located, (statusEnded_work v m).1.only.run.trans run⟩

/-- A locate that the parking test fails. -/
theorem takeStatus_failsLocate {l : Locate} {reason : LocateReason} (control : (s.machine m).control = .locating)
    (locate : (s.machine m).locate = some l) (effect : locateEffect reason m = .hold .cueFail (some m))
    (parked : statusParked s m p = failLocate (statusBegun s m p) m reason) :
    LocateEnded s (takeStatus s m p) m l reason := by
  have begun := statusBegun_spec s m p
  have control := begun.control.trans control
  have locate := begun.locate.trans locate
  have gone : ((statusParked s m p).1.machine m).control = .free := by
    rw [parked]
    cases owner : l.owner with
    | console =>
      rw [failLocate_console reason control locate owner]
      exact congrArg MachineRec.control (locateGone_machine (statusBegun s m p) m)
    | run =>
      rw [failLocate_run reason control locate owner]
      exact congrArg MachineRec.control (locateGone_machine (statusBegun s m p) m)
  rw [takeStatus_unchased (by rw [gone]; simp), parked]
  exact begun.ended (failLocate_ended control locate effect)

/-- A locate that the parking test ends on its target. -/
theorem takeStatus_parks {l : Locate} {n : Nat} (parked : statusParked s m p = (parkOnTarget (statusBegun s m p) m l n, [])) :
    ((takeStatus s m p).machine m).control = .parked ∧ ((takeStatus s m p).machine m).locate = none
      ∧ (takeStatus s m p).run = s.run
      ∧ (l.owner = .console → Noticed (takeStatus s m p) (.locateDone m (machineLabel s m l.target) (machineLabel s m n))) := by
  have begun := statusBegun_spec s m p
  obtain ⟨work, machine, noticed⟩ := parkOnTarget_spec (statusBegun s m p) m l n
  rw [begun.label, begun.label] at noticed
  have there : ((parkOnTarget (statusBegun s m p) m l n).machine m).control = .parked := by rw [machine]
  have unlocated : ((parkOnTarget (statusBegun s m p) m l n).machine m).locate = none := by rw [machine]
  have run := work.only.run.trans begun.work.only.run
  rw [takeStatus_unchased (by rw [parked, there]; simp), parked, deliver_nil]
  dsimp only
  generalize parkOnTarget (statusBegun s m p) m l n = v at *
  obtain ⟨ended, notices⟩ := statusEnded_work v m
  have record := statusEnded_still (v := v) (m := m) (by rw [there]; decide)
  refine ⟨by rw [record]; exact there, by rw [record]; exact unlocated, ended.only.run.trans run,
    fun owner => notices.noticed _ rfl (noticed owner)⟩

/-- A locate that a mismatch places again. -/
theorem takeStatus_placesAgain {l : Locate} (exchange : (s.port m).exchange = some x) (control : (s.machine m).control = .locating)
    (few : l.mismatches < 2) (takes : TakesMotion s m) (held : (s.port m).lineHeld)
    (parked : statusParked s m p = locateMismatch (statusBegun s m p) m l) :
    ((takeStatus s m p).machine m).control = .locating ∧ (takeStatus s m p).run = s.run
      ∧ ((takeStatus s m p).machine m).locate = some { l with acknowledged := false, mismatches := l.mismatches + 1 }
      ∧ (x.onLine = false → ((takeStatus s m p).port m).queue = motionQueue (s.port m).queue (.locate l.target)) := by
  have begun := statusBegun_spec s m p
  have completed := begun.exchange.trans (congrArg Port.exchange (Port.completed_of exchange))
  have headOnLine : ((statusBegun s m p).port m).headOnLine = (s.port m).headOnLine := by
    unfold Port.headOnLine
    rw [completed, exchange]
  obtain ⟨q, placed, -⟩ := placeMotion_taken (begun.takes.2 takes) (.locate l.target)
  have unanswered := Port.placeMotion_unanswered placed (by
    intro on
    rw [begun.queue]
    exact held (headOnLine ▸ on))
  obtain ⟨work, port, machine⟩ := locateAgain_spec (statusBegun s m p) m l q
  have queued : q.queue = motionQueue (s.port m).queue (.locate l.target) := by
    obtain ⟨-, queue, -⟩ := Port.placeMotion_spec placed
    rw [← begun.queue]
    exact queue
  have again := parked.trans (locateMismatch_again few placed)
  have kept := takeStatus_keepsLocate again (by rw [machine]; exact begun.control.trans control) (by rw [machine])
    (work.only.run.trans begun.work.only.run)
  rw [port, unanswered] at kept
  refine ⟨kept.1, kept.2.2, kept.2.1, fun off => ?_⟩
  have nothing : q.onLineRequest = none := by
    unfold Port.onLineRequest Port.lineHead
    rw [Port.placeMotion_headOnLine placed (by unfold Port.headOnLine; rw [completed]; exact off)]
    rfl
  have online : (locateAgain (statusBegun s m p) m l q).link m = .online := by
    show ((locateAgain (statusBegun s m p) m l q).port m).link = .online
    rw [port]
    obtain ⟨here, -, frame⟩ := Port.placeMotion_spec placed
    rw [frame]
    exact here
  have quiet : ((locateAgain (statusBegun s m p) m l q).port m).onLineRequest = none := by rw [port]; exact nothing
  rw [takeStatus_unchased (by rw [again, machine, begun.control, control]; simp), again, deliver_nil]
  dsimp only
  rw [statusEnded, answerOnLine_idle quiet, statusLink_online online, port, queued]

/-- The request on the line that a STATUS answers is a LOCATE. -/
def answersLocate (s : State) (m : MachineId) (x : Exchange) : Bool :=
  x.onLine && (s.port m).queue.head?.any (fun y => y.request.isLocate)

theorem StatusBegun.answersLocate {a : State} (h : StatusBegun s a m) (exchange : (s.port m).exchange = some x) :
    (a.port m).onLineRequest.any (fun y => y.request.isLocate) = answersLocate s m x := by
  rw [h.onLineRequest exchange]
  unfold Machine.answersLocate
  cases x.onLine <;> rfl

end status

/-- Settles O37: the parts of a STATUS keep what it reported, and the parking test sees the record, the link and the queue that
stood before it. -/
theorem statusUpdatesMachine : Obligations.StatusUpdatesMachine := by
  unfold Obligations.StatusUpdatesMachine
  intro s m x chars p present exchange status
  have shown := takeStatus_shown s m p
  have begun := statusBegun_spec s m p
  refine ⟨takeStatus s m p, execStatusReply_of status, shown.errors, takeStatus_online present p, shown.transport, shown.parked,
    shown.given, shown.kept, fun free online => ?_, fun l control locate => ⟨fun waits => ?_, fun acknowledged =>
      ⟨fun out => ?_, fun there moving => ?_, fun there parks onTarget => ?_, fun there parks off => ⟨fun few takes held => ?_, fun last => ?_⟩⟩⟩,
    (takeStatus_step s m p).list⟩
  · obtain ⟨q, r, taken, queue, line, still⟩ := takeStatus_free (p := p) exchange free online
    rw [taken]
    have port : ((s.setPort m q).setMachine m r).port m = q := State.setPort_port s m q
    have record := State.setMachine_machine (s.setPort m q) m r
    refine ⟨by rw [port, queue]; rfl, by rw [port, line]; rfl, fun n hn => ?_, by rw [record, still], rfl⟩
    exact ⟨State.setPort_port_other s q hn, State.setMachine_machine_other (s := s.setPort m q) r hn⟩
  · have kept := takeStatus_keepsLocate (parkingTest_waiting (begun.control.trans control) (begun.locate.trans locate) waits)
      (begun.control.trans control) (begun.locate.trans locate) begun.work.only.run
    rw [waits, Bool.false_or, begun.answersLocate exchange] at kept
    exact kept
  · have ended := takeStatus_failsLocate control locate rfl
      (parkingTest_tapeOut (begun.control.trans control) (begun.locate.trans locate) acknowledged out)
    exact ⟨ended.free.1, ended.free.2, ended.console, ended.run⟩
  · have kept := takeStatus_keepsLocate
      (parkingTest_moving (begun.control.trans control) (begun.locate.trans locate) acknowledged there moving)
      (begun.control.trans control) (begun.locate.trans locate) begun.work.only.run
    have same : ({ l with acknowledged := true } : Locate) = l := by rw [← acknowledged]
    rw [acknowledged, Bool.true_or, same] at kept
    exact kept
  · obtain ⟨n, update, near⟩ := onTarget
    obtain ⟨done, unlocated, run, noticed⟩ := takeStatus_parks (parkingTest_onTarget (begun.control.trans control)
      (begun.locate.trans locate) acknowledged there parks update (by rw [begun.day, begun.params]; exact near))
    exact ⟨done, unlocated, run, fun owner => ⟨n, update, noticed owner⟩⟩
  · exact takeStatus_placesAgain exchange control few takes held (parkingTest_offTarget (begun.control.trans control)
      (begun.locate.trans locate) acknowledged there parks (by rw [begun.day, begun.params]; exact off))
  · have test : statusParked s m p = locateMismatch (statusBegun s m p) m l := parkingTest_offTarget (begun.control.trans control)
      (begun.locate.trans locate) acknowledged there parks (by rw [begun.day, begun.params]; exact off)
    have ended := takeStatus_failsLocate control locate rfl
      (test.trans (locateMismatch_fails (last.imp_right fun full => fun takes => full (begun.takes.1 takes))))
    exact ⟨ended.free.1, ended.free.2, ended.console, ended.run⟩

end Sys2Proof.Machine
end

section
/-! The statements on ROLL, the cue timeout and the sync deadline (R21, R109, R126 to R128). -/

namespace Sys2Proof.Machine

/-! ### The leader TIMELINE (R109) -/

/-- What the leader TIMELINE makes of a machine and its port: PLAY is placed where the port takes a motion request. -/
structure ChasesTimeline (s t : State) (m : MachineId) (terms : Option TargetTerms) : Prop where
  record : t.machine m = { s.machine m with
    leader := .timeline, terms := terms, control := .chasing, inWindow := 0, outWindow := 0
    lastSpeed := (t.machine m).lastSpeed }
  play : TakesMotion s m → (t.machine m).lastSpeed = some 256 ∧ (t.port m).queue = motionQueue (s.port m).queue .play
  takes : TakesMotion s m → TakesMotion t m

theorem tryMotion_takes {s : State} {m : MachineId} {r : DeckRequest} (motion : r.isMotion = true) (takes : TakesMotion s m) (v : Int) :
    TakesMotion (tryMotion s m r v) m := by
  obtain ⟨p, hp, placed⟩ := tryMotion_taken takes r v
  obtain ⟨online, queue, frame⟩ := Port.placeMotion_spec hp
  have port : (tryMotion s m r v).port m = p := by rw [placed]; exact State.setPort_port s m p
  refine ⟨?_, .inl ?_⟩
  · show ((tryMotion s m r v).port m).link = .online
    rw [port, frame]
    exact online
  · rw [port, queue]
    exact motionQueue_motion motion _

/-- A machine given the leader TIMELINE, before PLAY is placed. -/
def ledByTimeline (s : State) (m : MachineId) (terms : Option TargetTerms) : State :=
  updateMachine s m (fun x => { x with leader := .timeline, terms := terms })

theorem chaseTimeline_chases (s : State) (m : MachineId) (terms : Option TargetTerms) :
    ChasesTimeline s (chaseTimeline s m terms) m terms := by
  have record : (tryMotion (ledByTimeline s m terms) m .play 256).machine m
      = { s.machine m with leader := .timeline, terms := terms, lastSpeed := ((tryMotion (ledByTimeline s m terms) m .play 256).machine m).lastSpeed } := by
    have placed := tryMotion_record (ledByTimeline s m terms) m .play 256
    rwa [show (ledByTimeline s m terms).machine m = { s.machine m with leader := .timeline, terms := terms } from State.setMachine_machine s m _] at placed
  have chased := changeMachine_machine (tryMotion (ledByTimeline s m terms) m .play 256) m (fun x => { x.countsCleared with control := .chasing })
  have port := changeMachine_port (tryMotion (ledByTimeline s m terms) m .play 256) m m (fun x => { x.countsCleared with control := .chasing })
  have placed := (tryMotion_port (ledByTimeline s m terms) m .play 256).1
  change ChasesTimeline s (changeMachine (tryMotion (ledByTimeline s m terms) m .play 256) m
    (fun x => { x.countsCleared with control := .chasing })) m terms
  refine ⟨?_, fun takes => ?_, fun takes => ?_⟩
  · rw [chased, record]; rfl
  · rw [chased, port]
    obtain ⟨queue, speed⟩ := placed takes
    exact ⟨speed, queue⟩
  · have still : TakesMotion (tryMotion (ledByTimeline s m terms) m .play 256) m := tryMotion_takes rfl (s := ledByTimeline s m terms) takes 256
    unfold TakesMotion State.link at still ⊢
    rw [port]
    exact still

/-- A second turn of the same machine changes nothing more. -/
theorem ChasesTimeline.again {s t u : State} {m : MachineId} {terms : Option TargetTerms} (h : ChasesTimeline s t m terms)
    (k : ChasesTimeline t u m terms) : ChasesTimeline s u m terms := by
  refine ⟨?_, fun takes => ?_, fun takes => k.takes (h.takes takes)⟩
  · rw [k.record, h.record]
  · obtain ⟨speed, queue⟩ := k.play (h.takes takes)
    rw [(h.play takes).2, motionQueue_again rfl] at queue
    exact ⟨speed, queue⟩

/-- Nothing of one machine and its port has changed. -/
def UnitKept (s t : State) (m : MachineId) : Prop := t.machine m = s.machine m ∧ t.port m = s.port m

theorem ChasesTimeline.of_kept {s t u : State} {m : MachineId} {terms : Option TargetTerms} (h : UnitKept s t m)
    (k : ChasesTimeline t u m terms) : ChasesTimeline s u m terms := by
  obtain ⟨machine, port⟩ := h
  have takes : TakesMotion t m ↔ TakesMotion s m := by unfold TakesMotion State.link; rw [port]
  refine ⟨?_, fun x => ?_, fun x => k.takes (takes.2 x)⟩
  · rw [k.record, machine]
  · rw [← port]
    exact k.play (takes.2 x)

theorem ChasesTimeline.kept {s t u : State} {m : MachineId} {terms : Option TargetTerms} (h : ChasesTimeline s t m terms)
    (k : UnitKept t u m) : ChasesTimeline s u m terms := by
  obtain ⟨machine, port⟩ := k
  refine ⟨by rw [machine]; exact h.record, fun x => by rw [machine, port]; exact h.play x, fun x => ?_⟩
  unfold TakesMotion State.link
  rw [port]
  exact h.takes x

/-- Every machine of a list is given the leader TIMELINE, whichever stands in it twice. -/
theorem foldl_chases (terms : MachineId → Option TargetTerms) {ms : List MachineId} {m : MachineId} (hm : m ∈ ms) (s : State) :
    ChasesTimeline s (ms.foldl (fun t n => chaseTimeline t n (terms n)) s) m (terms m) := by
  have others (t : State) (n : MachineId) (hn : m ≠ n) : UnitKept t (chaseTimeline t n (terms n)) m :=
    (chaseTimeline_others t n (terms n) m hn).symm
  have own (t : State) (h : UnitKept s t m ∨ ChasesTimeline s t m (terms m)) :
      ChasesTimeline s (chaseTimeline t m (terms m)) m (terms m) :=
    h.elim (fun k => .of_kept k (chaseTimeline_chases ..)) (fun k => k.again (chaseTimeline_chases ..))
  refine foldl_establishes (f := fun t n => chaseTimeline t n (terms n)) (Q := fun t => ChasesTimeline s t m (terms m))
    (A := fun t => UnitKept s t m ∨ ChasesTimeline s t m (terms m)) (fun t n h => ?_) (fun t n _ h => ?_) own hm (.inl ⟨rfl, rfl⟩)
  · by_cases hn : m = n
    · rw [← hn]; exact .inr (own t h)
    · obtain ⟨machine, port⟩ := others t n hn
      exact h.imp (fun k => ⟨machine.trans k.1, port.trans k.2⟩) (fun k => k.kept ⟨machine, port⟩)
  · by_cases hn : m = n
    · rw [← hn]; exact own t (.inr h)
    · exact h.kept (others t n hn)

/-! ### The roll (R127) -/

/-- What the roll leaves. -/
structure Rolled (s t : State) (e : Event) (rt : RunTimes) : Prop where
  frame : t = { s with
    timeline := { s.timeline with clock := some ⟨fieldCount s, rt.t0⟩ }, ports := t.ports, machines := t.machines
    run := { s.run with phase := .rolling }, console := t.console }
  notices : OnlyNotices s t
  noticed : Noticed t (.runPhase .rolling s.run.mode s.run.current)
  chases : ∀ m ∈ eventMachines s e.record, ChasesTimeline s t m (machineTerms s e.record m)
  others : ∀ m, m ∉ eventMachines s e.record → t.machine m = s.machine m ∧ t.port m = s.port m

theorem makeRoll_rolled {s : State} {e : Event} {rt : RunTimes} (copy : s.run.copy = some e) (times : s.run.times = some rt) :
    Rolled s (makeRoll s) e rt := by
  have machines : runMachines s = eventMachines s e.record := by unfold runMachines; rw [copy]
  have made : makeRoll s = enterPhase ((eventMachines s e.record).foldl (fun x m => chaseTimeline x m (machineTerms s e.record m))
      (startClock s rt.t0)) .rolling := by
    unfold makeRoll
    rw [times, copy]
    dsimp only
    rw [machines]
  have only : MachinesOnly (startClock s rt.t0)
      ((eventMachines s e.record).foldl (fun x m => chaseTimeline x m (machineTerms s e.record m)) (startClock s rt.t0)) :=
    .foldl (fun t m => chaseTimeline_machinesOnly t m _) _ _
  have chases {m : MachineId} (hm : m ∈ eventMachines s e.record) := foldl_chases (machineTerms s e.record) hm (startClock s rt.t0)
  have others {m : MachineId} (hm : m ∉ eventMachines s e.record) := foldl_others
    (f := fun x m => chaseTimeline x m (machineTerms s e.record m)) (fun t n => chaseTimeline_others t n _) (startClock s rt.t0) hm
  rw [made]
  generalize (eventMachines s e.record).foldl (fun x m => chaseTimeline x m (machineTerms s e.record m)) (startClock s rt.t0) = u at *
  have mode : u.run = s.run := only.run
  obtain ⟨frame, console⟩ := only
  have entered (r : RunRecord) (c : ConsolePort) : ({ u with run := r, console := c } : State)
      = { startClock s rt.t0 with ports := u.ports, machines := u.machines, run := r, console := c } := by rw [frame]
  refine ⟨?_, ?_, ?_, fun m hm => ?_, fun m hm => (others hm).symm⟩
  · rw [← mode]
    exact entered _ _
  · exact console.trans (raiseNotice_onlyNotices _ _)
  · rw [← mode]
    exact raiseNotice_noticed _ _
  · exact .of_kept (t := startClock s rt.t0) ⟨rfl, rfl⟩ ((chases hm).kept ⟨rfl, rfl⟩)

theorem allParked_iff {s : State} : allParked s = true ↔ ∀ m ∈ runMachines s, (s.machine m).control = .parked := by
  simp [allParked]

/-- The state in which the Run Controller acts on a field start. -/
def runBegun (s : State) : State := { s with waiting := s.waiting.erase .run }

theorem takeField_run {s : State} (waits : s.waiting.contains .run = true) : takeField s .run = runField (runBegun s) :=
  takeField_waiting waits

theorem runField_cueing {s : State} (cueing : s.run.phase = .cueing) : runField s = cueingField s := if_pos cueing

theorem runField_later {s : State} (later : s.run.phase ≠ .cueing) :
    runField s = postrollField (editOffField (editOnField (syncField s))) := if_neg later

/-- The state in which the Run Controller makes the roll or the cue timeout. -/
def cueingBegun (s : State) : State := raiseCueing (runBegun s)

/-- Settles O42: the roll is due, and the roll is made from the state with the cueing count raised. -/
theorem rollStartsClockAndChase : Obligations.RollStartsClockAndChase := by
  unfold Obligations.RollStartsClockAndChase
  intro s e rt f waits cueing copy times field parity parked
  have machines : runMachines s = eventMachines s e.record := by unfold runMachines; rw [copy]
  have due : rollDue (raiseCueing s) = true := by
    have all : allParked (raiseCueing s) = true := allParked_iff.2 (machines ▸ parked)
    have parities : parityMatches (raiseCueing s) = true := by
      unfold parityMatches
      rw [show (raiseCueing s).timeline.field = some f from field, show (raiseCueing s).run.times = some rt from times]
      simpa using parity
    unfold rollDue
    rw [all, parities, show (raiseCueing s).run.phase = .cueing from cueing]
    rfl
  have step : exec .roll s = .next (makeRoll (cueingBegun s)) := by
    show execRoll s = _
    unfold execRoll
    rw [if_pos (by rw [due]; exact (Bool.and_true _).trans waits), takeField_run waits, runField_cueing (by exact cueing),
      cueingField, if_pos (by exact due)]
    rfl
  have rolled := makeRoll_rolled (s := cueingBegun s) (e := e) (rt := rt) copy times
  have count : fieldCount (cueingBegun s) = f.count := by
    show fieldCount s = _
    unfold fieldCount
    rw [field]
  refine ⟨makeRoll (cueingBegun s), step, ?_, ?_, rolled.noticed, fun m hm => ?_, rolled.others, rolled.notices, ?_⟩
  · rw [← count]
    exact congrArg State.timeline rolled.frame
  · exact congrArg State.run rolled.frame
  · obtain ⟨record, play, -⟩ := rolled.chases m hm
    exact ⟨record, play⟩
  · have frame := rolled.frame
    generalize makeRoll (cueingBegun s) = t at *
    rw [frame]
    rfl

/-! ### The cue timeout and the sync deadline (R126, R128) -/

theorem allParked_of_firstNot {s : State} {m : MachineId} (first : firstNot s .parked = some m) : allParked s = false := by
  unfold firstNot at first
  have found := List.find?_some first
  have mem := List.mem_of_find?_eq_some first
  refine Bool.eq_false_iff.2 fun all => ?_
  have := allParked_iff.1 all m mem
  simp [this] at found

/-- In HELD nothing of a field start is at hand. -/
theorem runField_held {s : State} (held : s.run.phase = .held) : postrollField (editOffField (editOnField s)) = s := by
  have on : editOnField s = s := by
    unfold editOnField editOnAt
    rw [held]
    cases s.run.times <;> cases currentPosition s <;> rfl
  have off : editOffField s = s := by
    unfold editOffField editOffDue
    rw [held]
    rfl
  rw [on, off]
  unfold postrollField postrollDue
  rw [held]
  rfl

theorem atTime_iff {s : State} {rt : RunTimes} {p : Nat} (times : s.run.times = some rt) (position : currentPosition s = some p)
    (f : RunTimes → Nat) : atTime s f = true ↔ f rt = p := by
  unfold atTime
  rw [times, position]
  simp

theorem editOnAt_eq {s : State} {rt : RunTimes} {p : Nat} (times : s.run.times = some rt) (position : currentPosition s = some p)
    (phase : s.run.phase = .rolling ∨ s.run.phase = .editing) : editOnAt s = rt.editOns.find? (fun x => x.position == p) := by
  unfold editOnAt
  rw [times, position]
  rcases phase with phase | phase <;> rw [phase] <;> rfl

theorem editOnField_none {s : State} {rt : RunTimes} {p : Nat} (times : s.run.times = some rt) (position : currentPosition s = some p)
    (phase : s.run.phase = .rolling ∨ s.run.phase = .editing) (others : ∀ x ∈ rt.editOns, x.position ≠ p) : editOnField s = s := by
  unfold editOnField
  rw [editOnAt_eq times position phase, List.find?_eq_none.2 (fun x hx => by simpa using others x hx)]

theorem editOffField_none {s : State} (undue : editOffDue s = false) : editOffField s = s := by
  unfold editOffField
  rw [undue]
  rfl

theorem postrollField_none {s : State} (undue : postrollDue s = false) : postrollField s = s := by
  unfold postrollField
  rw [undue]
  rfl

/-- The state once the sync deadline has passed. -/
def pastDeadline (s : State) : State := { runBegun s with run := { s.run with deadlinePassed := true } }

/-- Settles O43: the raised count makes the hold due, and a hold ends the work of a field start. -/
theorem cueTimeoutAndSyncDeadlineHold : Obligations.CueTimeoutAndSyncDeadlineHold := by
  unfold Obligations.CueTimeoutAndSyncDeadlineHold
  intro s waits
  refine ⟨fun m cueing late first => ?timeout, fun rt p rolling times position deadline => ⟨fun m first => ?unlocked, fun all others => ?passed⟩⟩
  case timeout =>
    have waiting := allParked_of_firstNot first
    have undue : rollDue (raiseCueing s) = false := by
      unfold rollDue
      rw [show allParked (raiseCueing s) = false from waiting, Bool.and_false]
      rfl
    have late : cueTimeoutInForce (raiseCueing s) ≤ (raiseCueing s).run.cueingCount := late
    have due : cueTimeoutDue (raiseCueing s) = true := by
      unfold cueTimeoutDue
      rw [show allParked (raiseCueing s) = false from waiting, show (raiseCueing s).run.phase = .cueing from cueing]
      simpa using late
    have step : exec .cueTimeout s = .next (holdRun (cueingBegun s) .cueTimeout (some m)) := by
      show execCueTimeout s = _
      unfold execCueTimeout
      rw [if_pos (by rw [undue, due]; simpa [runWaits] using waits), takeField_run waits,
        runField_cueing (by exact cueing), cueingField, if_neg (fun roll => by cases undue.symm.trans roll), if_pos (by exact due)]
      show Host.Outcome.next (holdRun (cueingBegun s) .cueTimeout (firstNot s .parked)) = _
      rw [first]
    have active : (cueingBegun s).run.phase.active = true := by
      show s.run.phase.active = true
      rw [cueing]; rfl
    have noticed := holdRun_noticed active .cueTimeout (some m)
    rw [show (cueingBegun s).run.phase = .cueing from cueing] at noticed
    exact ⟨_, step, holdRun_taken active .cueTimeout (some m), noticed⟩
  case unlocked =>
    have due : deadlineDue s = true := by
      unfold deadlineDue
      rw [rolling, (atTime_iff times position _).2 deadline]
      rfl
    have active : (runBegun s).run.phase.active = true := by
      show s.run.phase.active = true
      rw [rolling]; rfl
    have step : exec .syncDeadline s = .next (holdRun (runBegun s) .syncFail (some m)) := by
      show execSyncDeadline s = _
      unfold execSyncDeadline
      rw [if_pos (by rw [due]; simpa [runWaits] using waits), takeField_run waits]
      have synced : syncField (runBegun s) = holdRun (runBegun s) .syncFail (some m) := by
        unfold syncField
        rw [if_pos (show deadlineDue (runBegun s) = true from due), show firstNot (runBegun s) .locked = some m from first]
      rw [runField_later (by show s.run.phase ≠ _; rw [rolling]; decide), synced, runField_held (holdRun_run active ..).1]
    have noticed := holdRun_noticed active .syncFail (some m)
    rw [show (runBegun s).run.phase = .rolling from rolling] at noticed
    exact ⟨_, step, holdRun_taken active .syncFail (some m), noticed⟩
  case passed =>
    have due : deadlineDue s = true := by
      unfold deadlineDue
      rw [rolling, (atTime_iff times position _).2 deadline]
      rfl
    have synced : syncField (runBegun s) = (pastDeadline s) := by
      unfold syncField
      rw [if_pos (show deadlineDue (runBegun s) = true from due), show firstNot (runBegun s) .locked = none from all]
      rfl
    have off : editOffDue (pastDeadline s) = false := by unfold editOffDue; rw [show (pastDeadline s).run.phase = .rolling from rolling]; rfl
    have post : postrollDue (pastDeadline s) = false := by unfold postrollDue; rw [show (pastDeadline s).run.phase = .rolling from rolling]; rfl
    show execSyncDeadline s = _
    unfold execSyncDeadline
    rw [if_pos (by rw [due]; simpa [runWaits] using waits), takeField_run waits]
    rw [runField_later (by show s.run.phase ≠ _; rw [rolling]; decide), synced,
      editOnField_none (s := pastDeadline s) times position (.inl rolling) others, editOffField_none off, postrollField_none post]
    rfl

end Sys2Proof.Machine
end

section
/-! The statement on the edit-on and edit-off fields (R129, R131, R142). -/

namespace Sys2Proof.Machine

/-! ### An edit request at the recorder's port (R129, R131) -/

/-- The state with an edit request at the tail of the recorder's queue. -/
def editPlaced (s : State) (rec : MachineId) (r : DeckRequest) : State :=
  s.setPort rec { s.port rec with queue := (s.port rec).queue ++ [⟨r, s.run.current⟩] }

/-- The recorder's port cannot hold an edit request, and what the run's hold is then caused by. -/
def EditRefused (s : State) (rec : MachineId) (cause : HoldCause) : Prop :=
  (s.link rec = .online ∧ ¬ (s.port rec).queue.length < 4 ∧ cause = .editCommandFailed)
    ∨ (s.link rec = .offline ∧ cause = .machineOffline) ∨ (s.link rec = .localMode ∧ cause = .machineLocal)

section place

variable {s : State} {rec : MachineId} (recorder : s.recorder = some rec)
include recorder

theorem placeEditRequest_placed (online : s.link rec = .online) (room : (s.port rec).queue.length < 4) (r : DeckRequest) :
    placeEditRequest s r = .ok (editPlaced s rec r) := by
  have link : linkRefusal (s.port rec).link = none := by rw [show (s.port rec).link = .online from online]; rfl
  have placed : (s.port rec).placeEdit ⟨r, s.run.current⟩
      = .ok { s.port rec with queue := (s.port rec).queue ++ [⟨r, s.run.current⟩] } := by
    unfold Port.placeEdit
    rw [link]
    exact if_pos room
  unfold placeEditRequest
  rw [recorder]
  dsimp only
  rw [placed]
  rfl

theorem placeEditRequest_refused {cause : HoldCause} (refused : EditRefused s rec cause) (r : DeckRequest) :
    ∃ e, placeEditRequest s r = .error e ∧ editRefusalCause e = cause := by
  have answered {e : Result} (port : (s.port rec).placeEdit ⟨r, s.run.current⟩ = .error e) : placeEditRequest s r = .error e := by
    unfold placeEditRequest
    rw [recorder]
    dsimp only
    rw [port]
  rcases refused with ⟨online, full, rfl⟩ | ⟨offline, rfl⟩ | ⟨localMode, rfl⟩
  · refine ⟨.queueFull, answered ?_, rfl⟩
    have link : linkRefusal (s.port rec).link = none := by rw [show (s.port rec).link = .online from online]; rfl
    unfold Port.placeEdit
    rw [link]
    exact if_neg full
  · have link : linkRefusal (s.port rec).link = some .offline := by rw [show (s.port rec).link = .offline from offline]; rfl
    exact ⟨.offline, answered (Port.place_refused link r _).2.1, rfl⟩
  · have link : linkRefusal (s.port rec).link = some .localMode := by rw [show (s.port rec).link = .localMode from localMode]; rfl
    exact ⟨.localMode, answered (Port.place_refused link r _).2.1, rfl⟩

end place

/-! ### What is not at hand at a field start -/

theorem editOffDue_phase {s : State} (other : s.run.phase ≠ .editing) : editOffDue s = false := by
  unfold editOffDue
  rw [beq_eq_false_iff_ne.2 other]
  rfl

theorem postrollDue_phase {s : State} (other : s.run.phase ≠ .postroll) : postrollDue s = false := by
  unfold postrollDue
  rw [beq_eq_false_iff_ne.2 other]
  rfl

theorem deadlineDue_phase {s : State} (other : s.run.phase ≠ .rolling) : deadlineDue s = false := by
  unfold deadlineDue
  rw [beq_eq_false_iff_ne.2 other]
  rfl

theorem syncField_none {s : State} (undue : deadlineDue s = false) : syncField s = s := by
  unfold syncField
  rw [undue]
  rfl

section times

variable {s : State} {rt : RunTimes} {p : Nat} (times : s.run.times = some rt) (position : currentPosition s = some p)
include times position

theorem atTime_false {f : RunTimes → Nat} (other : f rt ≠ p) : atTime s f = false :=
  Bool.eq_false_iff.2 fun there => other ((atTime_iff times position f).1 there)

theorem deadlineDue_other (other : rt.syncDeadline ≠ p) : deadlineDue s = false := by
  unfold deadlineDue
  rw [atTime_false times position other, Bool.and_false]

theorem editOffDue_other (other : rt.editOff ≠ p) : editOffDue s = false := by
  unfold editOffDue
  rw [atTime_false times position other, Bool.and_false]

theorem editOffDue_there (editing : s.run.phase = .editing) (there : rt.editOff = p) : editOffDue s = true := by
  unfold editOffDue
  rw [editing, (atTime_iff times position _).2 there]
  rfl

theorem postrollDue_other (other : rt.postrollEnd ≠ p) : postrollDue s = false := by
  unfold postrollDue
  rw [atTime_false times position other, Bool.and_false]

theorem postrollDue_there (postroll : s.run.phase = .postroll) (there : rt.postrollEnd = p) : postrollDue s = true := by
  unfold postrollDue
  rw [postroll, (atTime_iff times position _).2 there]
  rfl

end times

/-! ### A hold from a state in which the phase has just been entered -/

/-- The state with a phase entered and the field start taken. -/
def phaseEntered (s : State) (phase : Phase) (c : ConsolePort) (w : List Receiver) : State :=
  { s with run := { s.run with phase := phase }, console := c, waiting := w }

theorem HoldTaken.of_entered {s t : State} {phase : Phase} {c : ConsolePort} {w : List Receiver} {cause : HoldCause}
    (h : HoldTaken (phaseEntered s phase c w) t cause) : HoldTaken s t cause := h

/-! ### The edit-on field (R129) -/

/-- What E0 leaves: the phase is EDITING. -/
theorem enterEditing_entered {s : State} {rt : RunTimes} {p : Nat} (times : s.run.times = some rt)
    (position : currentPosition s = some p) (phase : s.run.phase = .rolling ∨ s.run.phase = .editing)
    (first : s.run.phase = .rolling → rt.e0 = p) :
    ∃ c, enterEditing s = phaseEntered s .editing c s.waiting
      ∧ c = { s.console with notices := c.notices, overflow := c.overflow }
      ∧ (rt.e0 = p → Noticed (enterEditing s) (.runPhase .editing s.run.mode s.run.current)) := by
  unfold enterEditing
  by_cases there : rt.e0 = p
  · rw [if_pos ((atTime_iff times position _).2 there)]
    exact ⟨(enterPhase s .editing).console, rfl, raiseNotice_onlyNotices _ _, fun _ => raiseNotice_noticed _ _⟩
  · rw [if_neg (by rw [atTime_false times position there]; decide)]
    have editing : s.run.phase = .editing := phase.resolve_left fun rolling => there (first rolling)
    refine ⟨s.console, ?_, rfl, fun h => absurd h there⟩
    unfold phaseEntered
    rw [← editing]

theorem placeEditOn_placed {s : State} {rec : MachineId} (recorder : s.recorder = some rec) (online : s.link rec = .online)
    (room : (s.port rec).queue.length < 4) (tracks : TrackSet) :
    placeEditOn s tracks = (editPlaced s rec (.editOn tracks)).updateRun
      (fun r => { r with editSet := r.editSet.union tracks, recordingStarted := true }) := by
  unfold placeEditOn
  rw [placeEditRequest_placed recorder online room]

theorem placeEditOn_refused {s : State} {rec : MachineId} {cause : HoldCause} (recorder : s.recorder = some rec)
    (refused : EditRefused s rec cause) (tracks : TrackSet) : placeEditOn s tracks = holdRun s cause (some rec) := by
  obtain ⟨e, answered, named⟩ := placeEditRequest_refused recorder refused (.editOn tracks)
  unfold placeEditOn
  rw [answered]
  dsimp only
  rw [named, recorder]

theorem editOnField_record {s : State} {x : EditOn} (found : editOnAt s = some x) (mode : s.run.mode = some .record) :
    editOnField s = placeEditOn (enterEditing s) x.tracks := by
  unfold editOnField
  rw [found, mode]

theorem editOnField_preview {s : State} {x : EditOn} (found : editOnAt s = some x) (mode : s.run.mode = some .preview) :
    editOnField s = enterEditing s := by
  unfold editOnField
  rw [found, mode]

/-! ### The edit-off field (R131) -/

theorem editOffField_placed {s : State} {rec : MachineId} (due : editOffDue s = true) (mode : s.run.mode = some .record)
    (recorder : s.recorder = some rec) (online : s.link rec = .online) (room : (s.port rec).queue.length < 4) :
    editOffField s = enterPhase ((editPlaced s rec (.editOff (currentTracks s))).updateRun (fun r => { r with editSet := TrackSet.none }))
      .postroll := by
  unfold editOffField
  rw [due, mode, placeEditRequest_placed recorder online room]
  rfl

theorem editOffField_refused {s : State} {rec : MachineId} {cause : HoldCause} (due : editOffDue s = true)
    (mode : s.run.mode = some .record) (recorder : s.recorder = some rec) (refused : EditRefused s rec cause) :
    editOffField s = holdRun s cause (some rec) := by
  obtain ⟨e, answered, named⟩ := placeEditRequest_refused recorder refused (.editOff (currentTracks s))
  unfold editOffField
  rw [due, mode, answered]
  dsimp only
  rw [named, recorder]
  rfl

theorem editOffField_preview {s : State} (due : editOffDue s = true) (mode : s.run.mode = some .preview) :
    editOffField s = enterPhase s .postroll := by
  unfold editOffField
  rw [due, mode]
  rfl

/-! ### The steps -/

section steps

variable {s : State} {rt : RunTimes} {p : Nat} (waits : s.waiting.contains .run = true) (times : s.run.times = some rt)
  (position : currentPosition s = some p)
include waits times position

theorem exec_editOnField {x : EditOn} (phase : s.run.phase = .rolling ∨ s.run.phase = .editing)
    (found : rt.editOns.find? (fun y => y.position == p) = some x) (deadline : rt.syncDeadline ≠ p) :
    exec .editOnField s = .next (postrollField (editOffField (editOnField (runBegun s)))) := by
  have undue := deadlineDue_other times position deadline
  have here := (editOnAt_eq times position phase).trans found
  have later : s.run.phase ≠ .cueing := by rcases phase with h | h <;> rw [h] <;> decide
  show execEditOnField s = _
  unfold execEditOnField
  rw [syncField_none undue, here, if_pos (by simpa [runWaits] using waits), takeField_run waits, runField_later (by exact later),
    syncField_none (s := runBegun s) undue]

theorem exec_editOffField (phase : s.run.phase = .editing) (others : ∀ x ∈ rt.editOns, x.position ≠ p) (there : rt.editOff = p) :
    exec .editOffField s = .next (postrollField (editOffField (runBegun s))) := by
  have undue : deadlineDue s = false := deadlineDue_phase (by rw [phase]; decide)
  have later : s.run.phase ≠ .cueing := by rw [phase]; decide
  show execEditOffField s = _
  unfold execEditOffField
  rw [syncField_none undue, editOnField_none times position (.inr phase) others,
    if_pos (by rw [editOffDue_there times position phase there]; simpa [runWaits] using waits), takeField_run waits,
    runField_later (by exact later), syncField_none (s := runBegun s) undue,
    editOnField_none (s := runBegun s) times position (.inr phase) others]

end steps

/-- A hold ends the work of the field start. -/
theorem runField_held_after {s : State} (held : s.run.phase = .held) : postrollField (editOffField s) = s := by
  rw [editOffField_none (editOffDue_phase (by rw [held]; decide)), postrollField_none (postrollDue_phase (by rw [held]; decide))]

/-- Settles O44: the parts of the field start that are not at hand change nothing, and the one that is places its request or
holds the run. -/
theorem editFieldsPlaceEditRequests : Obligations.EditFieldsPlaceEditRequests := by
  unfold Obligations.EditFieldsPlaceEditRequests
  intro s rt p e rec waits times position copy recorder w full holds
  refine ⟨fun x phase found deadline off post first => ?on, fun editing others there post => ?off⟩
  case on =>
    have step := exec_editOnField waits times position phase found deadline
    have here : editOnAt (runBegun s) = some x := (editOnAt_eq (s := runBegun s) times position phase).trans found
    obtain ⟨c, entered, console, noticed⟩ := enterEditing_entered (s := runBegun s) times position phase first
    have quiet {v : State} (hp : v.run.phase = .editing) (ht : v.run.times = some rt) (hc : currentPosition v = some p) :
        postrollField (editOffField v) = v := by
      rw [editOffField_none (editOffDue_other ht hc off), postrollField_none (postrollDue_other ht hc post)]
    refine ⟨fun mode online room => ?_, fun mode => ?_, fun mode cause refused => ?_⟩
    · have taken := (editOnField_record here mode).trans (placeEditOn_placed (s := enterEditing (runBegun s)) (rec := rec)
        (by rw [entered]; exact recorder) (by rw [entered]; exact online) (by rw [entered]; exact Classical.not_not.1 room) x.tracks)
      rw [taken] at step
      rw [entered] at step noticed
      rw [quiet (by exact rfl) (by exact times) (by exact position)] at step
      refine ⟨_, step, rfl, State.setPort_port .., fun n hn => ⟨State.setPort_port_other s _ hn, rfl⟩, rfl, fun h => ?_, console, rfl⟩
      rw [← mode]
      exact noticed h
    · have taken := editOnField_preview here mode
      rw [taken] at step
      rw [entered] at step noticed
      rw [quiet (by exact rfl) (by exact times) (by exact position)] at step
      refine ⟨_, step, rfl, fun h => ?_, console, rfl⟩
      rw [← mode]
      exact noticed h
    · have taken := (editOnField_record here mode).trans (placeEditOn_refused (s := enterEditing (runBegun s)) (rec := rec)
        (cause := cause) (by rw [entered]; exact recorder) (by rw [entered]; exact refused) x.tracks)
      rw [taken] at step
      rw [entered] at step
      have active : (phaseEntered (runBegun s) .editing c (runBegun s).waiting).run.phase.active = true := rfl
      rw [runField_held_after (holdRun_run active ..).1] at step
      exact ⟨_, step, .of_entered (holdRun_taken active cause (some rec)), holdRun_noticed active cause (some rec)⟩
  case off =>
    have step := exec_editOffField waits times position editing others there
    have due : editOffDue (runBegun s) = true := editOffDue_there (s := runBegun s) times position editing there
    have tracks : currentTracks (runBegun s) = e.record.tracks := by
      unfold currentTracks
      rw [show (runBegun s).run.copy = some e from copy]
    have quiet {v : State} (ht : v.run.times = some rt) (hc : currentPosition v = some p) : postrollField v = v :=
      postrollField_none (postrollDue_other ht hc post)
    refine ⟨fun mode online room => ?_, fun mode => ?_, fun mode cause refused => ?_⟩
    · rw [editOffField_placed due mode (rec := rec) recorder online (Classical.not_not.1 room), quiet (by exact times) (by exact position),
        tracks] at step
      refine ⟨_, step, rfl, State.setPort_port .., fun n hn => ⟨State.setPort_port_other s _ hn, rfl⟩, rfl, ?_,
        raiseNotice_onlyNotices _ _, rfl⟩
      rw [← mode]
      exact raiseNotice_noticed _ _
    · rw [editOffField_preview due mode, quiet (by exact times) (by exact position)] at step
      refine ⟨_, step, rfl, ?_, raiseNotice_onlyNotices _ _, rfl⟩
      rw [← mode]
      exact raiseNotice_noticed _ _
    · have active : (runBegun s).run.phase.active = true := by
        show s.run.phase.active = true
        rw [editing]; rfl
      rw [editOffField_refused due mode recorder refused,
        postrollField_none (postrollDue_phase (by rw [(holdRun_run active ..).1]; decide))] at step
      have noticed := holdRun_noticed active cause (some rec)
      rw [show (runBegun s).run.phase = .editing from editing] at noticed
      exact ⟨_, step, holdRun_taken active cause (some rec), noticed⟩

end Sys2Proof.Machine
end

section
/-! The statement on the postroll end (R31, R110, R122, R131, R133). -/

namespace Sys2Proof.Machine

/-! ### Steps 1 to 5 of R133 -/

/-- The cursor moved past an event whose key is after it (R133 step 4, R139). -/
def advancedCursor (s : State) (e : Event) : Cursor :=
  if eventAfter s s.run.cursor e then ⟨startOffset s e.record, some e.insertion⟩ else s.run.cursor

theorem advanceCursor_found {s : State} {h : Nat} {e : Event} (found : findEvent s h = some e) :
    advanceCursor s h = s.updateRun (fun r => { r with cursor := advancedCursor s e }) := by
  unfold advanceCursor advancedCursor
  rw [found]
  dsimp only
  split
  · rfl
  · rfl

theorem advanceCursor_gone {s : State} {h : Nat} (gone : findEvent s h = none) : advanceCursor s h = s := by
  unfold advanceCursor
  rw [gone]

/-- The cursor that the end of an event leaves: in RANGE scope it is moved past the event. -/
theorem advanceInRange_found {s : State} {h : Nat} {e : Event} (found : findEvent s h = some e) :
    ∃ cursor, advanceInRange s h = s.updateRun (fun r => { r with cursor := cursor })
      ∧ ∀ a z, s.run.scope = some (.range a z) → cursor = advancedCursor s e := by
  unfold advanceInRange
  split
  · exact ⟨_, advanceCursor_found found, fun _ _ _ => rfl⟩
  · rename_i single
    exact ⟨s.run.cursor, rfl, fun a z range => by rw [single] at range; cases range⟩
  · rename_i unset
    exact ⟨s.run.cursor, rfl, fun a z range => by rw [unset] at range; cases range⟩

/-- What the end of an event makes of it: a change that keeps its key, by the mode. -/
theorem finishEvent_changes (s : State) (h : Nat) :
    ∃ f : Event → Event, finishEvent s h = changeEventState s h f
      ∧ (∀ e, (f e).handle = e.handle ∧ (f e).insertion = e.insertion ∧ (f e).record = e.record)
      ∧ (s.run.mode = some .record → f = Event.completed)
      ∧ (s.run.mode = some .preview → f = fun e => e.restored s.run.prior) := by
  unfold finishEvent
  split
  · exact ⟨_, rfl, Event.completed_key, fun _ => rfl, fun mode => by simp_all⟩
  · exact ⟨_, rfl, fun e => e.restored_key _, fun mode => by simp_all, fun _ => rfl⟩
  · exact ⟨_, rfl, fun e => e.restored_key _, fun _ => by simp_all, fun _ => rfl⟩

/-- The state when the event has been completed or restored, steps 1 to 3 of R133. -/
def eventFinished (s : State) (h : Nat) : State := finishEvent (stopClock (releaseAll s)) h

/-- What steps 1 to 3 of R133 leave; `e` is the event as it stood. -/
structure EventFinished (s t : State) (h : Nat) (e : Event) : Prop where
  frame : t = { s with
    timeline := { s.timeline with clock := none }, store := t.store, ports := t.ports, machines := t.machines
    console := t.console }
  list : listOf t = listOf s
  released : ∀ m ∈ runMachines s, (t.machine m).claimed = false
    ∧ ((s.machine m).claimed = true → (t.machine m).control = .free ∧ (t.machine m).leader = .noLeader)
  recorded : s.run.mode = some .record → findEvent t h = some e.completed
  previewed : s.run.mode = some .preview → findEvent t h = some (e.restored s.run.prior)
  params : ∀ m, (t.machine m).params = (s.machine m).params
  found : ∃ e', findEvent t h = some e' ∧ e'.insertion = e.insertion ∧ e'.record = e.record

theorem eventFinished_spec {s : State} {h : Nat} {e : Event} (found : findEvent s h = some e) :
    EventFinished s (eventFinished s h) h e := by
  have only := releaseAll_machinesOnly s
  have released := fun m hm => releases_released (runMachines s) s (m := m) hm
  obtain ⟨f, finished, key, recorded, previewed⟩ := finishEvent_changes (stopClock (releaseAll s)) h
  have run : (stopClock (releaseAll s)).run = s.run := only.run
  rw [run] at recorded previewed
  have found' : findEvent (stopClock (releaseAll s)) h = some e := by
    rw [← found]
    exact congrArg (fun l => findEvent { s with store := l } h) only.store
  have changed := changeEventState_found (f := f) (fun x => (key x).1) found'
  obtain ⟨frame, -⟩ := changeEventState_frame (stopClock (releaseAll s)) h f
  have list := (changeEventState_listOf (stopClock (releaseAll s)) h f key).1
  have machines : ∀ m, (changeEventState (stopClock (releaseAll s)) h f).machine m = (releaseAll s).machine m := fun m => by
    rw [frame]; rfl
  have step : BlockStep s (finishEvent (stopClock (releaseAll s)) h) :=
    BlockStep.trans (.of_machines (releaseAll_step s)) ((stopClock_step _).trans (finishEvent_step _ h))
  have params := step.params
  unfold eventFinished
  rw [finished] at params ⊢
  refine ⟨?_, ?_, fun m hm => ?_, fun mode => ?_, fun mode => ?_, params, f e, changed, (key e).2.1, (key e).2.2⟩
  · generalize changeEventState (stopClock (releaseAll s)) h f = u at *
    rw [frame]
    unfold stopClock State.updateTimeline
    rw [only.1]
  · rw [list]
    exact congrArg (fun l : EventStore => l.events.map (fun e => (e.handle, e.insertion, e.record))) only.store
  · rw [machines]
    exact released m hm
  · rw [changed, recorded mode]
  · rw [changed, previewed mode]

theorem EventFinished.run {s t : State} {h : Nat} {e : Event} (k : EventFinished s t h e) : t.run = s.run :=
  (congrArg State.run k.frame).trans rfl

theorem EventFinished.offset {s t : State} {h : Nat} {e : Event} (k : EventFinished s t h e) (r : Record) :
    startOffset t r = startOffset s r := by
  have timeline : t.timeline = { s.timeline with clock := none } := (congrArg State.timeline k.frame).trans rfl
  have day : dayRec t = dayRec s :=
    dayRec_congr (s := stopClock s) ((congrArg State.recorder k.frame).trans rfl) timeline k.params
  unfold startOffset offsetOf
  rw [day, timeline]

/-- The run record after steps 4 and 5 of R133. -/
def RunRecord.completed (r : RunRecord) (cursor : Cursor) : RunRecord :=
  { r.eventCleared with eventsDone := min 65535 (r.eventsDone + 1), cursor := cursor, editSet := TrackSet.none }

/-- Steps 4 and 5 of R133 change the run record alone. -/
theorem completeEvent_eq {s : State} {h : Nat} {e : Event} (found : findEvent s h = some e) :
    ∃ cursor, completeEvent s h = { eventFinished s h with run := s.run.completed cursor }
      ∧ ∀ a z, s.run.scope = some (.range a z) → cursor = advancedCursor s e := by
  have finished := eventFinished_spec found
  have made : completeEvent s h = (advanceInRange ((eventFinished s h).updateRun
      (fun r => { r with eventsDone := min 65535 (r.eventsDone + 1) })) h).updateRun
        (fun r => { r.eventCleared with editSet := TrackSet.none }) := rfl
  have run := finished.run
  obtain ⟨e', found', insertion, record⟩ := finished.found
  obtain ⟨cursor, advanced, moved⟩ := advanceInRange_found
    (s := (eventFinished s h).updateRun (fun r => { r with eventsDone := min 65535 (r.eventsDone + 1) })) found'
  refine ⟨cursor, ?_, fun a z scope => ?_⟩
  · rw [made, advanced, ← run]
    rfl
  · rw [moved a z (by rw [← scope, ← run]; rfl)]
    have offset : startOffset ((eventFinished s h).updateRun (fun r => { r with eventsDone := min 65535 (r.eventsDone + 1) })) e'.record
        = startOffset s e.record := by
      rw [record]
      exact finished.offset e.record
    unfold advancedCursor eventAfter
    rw [offset, insertion, ← run]
    rfl

/-- What the end of an event leaves, whatever is then made of the run (R133). -/
structure EventCompleted (s t : State) (h : Nat) (e : Event) : Prop where
  clock : t.timeline = { s.timeline with clock := none }
  list : listOf t = listOf s
  released : ∀ m ∈ runMachines s, (t.machine m).claimed = false
    ∧ ((s.machine m).claimed = true → (t.machine m).control = .free ∧ (t.machine m).leader = .noLeader)
  recorded : s.run.mode = some .record → findEvent t h = some (e.withState .performed ⟨false, false⟩)
  previewed : s.run.mode = some .preview → findEvent t h = some (e.restored s.run.prior)
  run : t.run.eventsDone = min 65535 (s.run.eventsDone + 1) ∧ t.run.copy = none ∧ t.run.times = none
    ∧ t.run.editSet = TrackSet.none ∧ t.run.recordingStarted = false
  blocks : t.effects = s.effects ∧ t.cues = s.cues ∧ t.recorder = s.recorder ∧ t.runParams = s.runParams

/-- The same, as the statement puts it. -/
theorem EventCompleted.shown {s t : State} {h : Nat} {e : Event} (k : EventCompleted s t h e) :
    t.timeline = { s.timeline with clock := none } ∧ listOf t = listOf s
      ∧ (∀ m ∈ runMachines s, (t.machine m).claimed = false
        ∧ ((s.machine m).claimed = true → (t.machine m).control = .free ∧ (t.machine m).leader = .noLeader))
      ∧ (s.run.mode = some .record → findEvent t h = some (e.withState .performed ⟨false, false⟩))
      ∧ (s.run.mode = some .preview → findEvent t h = some (e.restored s.run.prior))
      ∧ t.run.eventsDone = min 65535 (s.run.eventsDone + 1) ∧ t.run.copy = none ∧ t.run.times = none
      ∧ t.run.editSet = TrackSet.none ∧ t.run.recordingStarted = false
      ∧ t.effects = s.effects ∧ t.cues = s.cues ∧ t.recorder = s.recorder ∧ t.runParams = s.runParams := by
  obtain ⟨eventsDone, copy, times, editSet, started⟩ := k.run
  exact ⟨k.clock, k.list, k.released, k.recorded, k.previewed, eventsDone, copy, times, editSet, started, k.blocks⟩

/-- A state that shares the timeline, the list, the machines and the blocks with the one in which the event has been finished. -/
theorem EventFinished.completed {s u : State} {h : Nat} {e : Event} (k : EventFinished s u h e) {r : RunRecord} {c : ConsolePort}
    (run : r.eventsDone = min 65535 (s.run.eventsDone + 1) ∧ r.copy = none ∧ r.times = none
      ∧ r.editSet = TrackSet.none ∧ r.recordingStarted = false) :
    EventCompleted s { u with run := r, console := c } h e where
  clock := (congrArg State.timeline k.frame).trans rfl
  list := k.list
  released := k.released
  recorded := k.recorded
  previewed := k.previewed
  run := run
  blocks := ⟨(congrArg State.effects k.frame).trans rfl, (congrArg State.cues k.frame).trans rfl,
    (congrArg State.recorder k.frame).trans rfl, (congrArg State.runParams k.frame).trans rfl⟩

/-! ### The step -/

theorem editOnField_phase {s : State} (other : s.run.phase ≠ .rolling ∧ s.run.phase ≠ .editing) : editOnField s = s := by
  have none : editOnAt s = none := by
    unfold editOnAt
    rw [beq_eq_false_iff_ne.2 other.1, beq_eq_false_iff_ne.2 other.2]
    cases s.run.times <;> cases currentPosition s <;> rfl
  unfold editOnField
  rw [none]

theorem postroll_early {s : State} (postroll : s.run.phase = .postroll) : editOffField (editOnField (syncField s)) = s := by
  rw [syncField_none (deadlineDue_phase (by rw [postroll]; decide)), editOnField_phase (by rw [postroll]; decide),
    editOffField_none (editOffDue_phase (by rw [postroll]; decide))]

/-- In POSTROLL the postroll end alone can be at hand. -/
theorem exec_postrollEnd {s : State} {rt : RunTimes} {p h : Nat} (waits : s.waiting.contains .run = true)
    (postroll : s.run.phase = .postroll) (times : s.run.times = some rt) (position : currentPosition s = some p)
    (there : rt.postrollEnd = p) (current : s.run.current = some h) :
    exec .postrollEnd s = .next (afterPostroll (completeEvent (runBegun s) h)) := by
  have due : postrollDue s = true := postrollDue_there times position postroll there
  show execPostrollEnd s = _
  unfold execPostrollEnd
  rw [postroll_early postroll, if_pos (by rw [due]; simpa [runWaits] using waits), takeField_run waits,
    runField_later (by show s.run.phase ≠ _; rw [postroll]; decide), postroll_early (s := runBegun s) postroll]
  unfold postrollField
  rw [show postrollDue (runBegun s) = true from due, show (runBegun s).run.current = some h from current]
  rfl

/-- The postroll end of an event that stands in the list: the event is completed, then the pending hold is taken, the run ends, or
the next event is taken. -/
theorem postrollEnd_outcomes {s : State} {rt : RunTimes} {p h : Nat} {e : Event} (waits : s.waiting.contains .run = true)
    (postroll : s.run.phase = .postroll) (times : s.run.times = some rt) (position : currentPosition s = some p)
    (there : rt.postrollEnd = p) (current : s.run.current = some h) (found : findEvent s h = some e) :
    (∀ hold, s.run.holdPending = some hold →
        ∃ t, exec .postrollEnd s = .next t ∧ EventCompleted s t h e ∧ t.run.phase = .held ∧ t.run.holdCause = some hold.cause
          ∧ t.run.holdPending = none ∧ t.run.current = some h
          ∧ Noticed t (.runHeld hold.cause hold.machine (some h) (some .postroll) t.run.eventsDone))
      ∧ (∀ n, s.run.holdPending = none → s.run.scope = some (.single n) →
        ∃ t, exec .postrollEnd s = .next t ∧ EventCompleted s t h e ∧ t.run.phase = .idle ∧ t.run.current = none
          ∧ Noticed t (.runEnd s.run.mode t.run.eventsDone))
      ∧ (∀ a z, s.run.holdPending = none → s.run.scope = some (.range a z) →
        exec .postrollEnd s
            = .next (takeEvent (completeEvent (runBegun s) h) (searchScope (completeEvent (runBegun s) h)))
          ∧ EventCompleted s (completeEvent (runBegun s) h) h e
          ∧ (completeEvent (runBegun s) h).run.cursor = advancedCursor s e) := by
  have step := exec_postrollEnd waits postroll times position there current
  have finished : EventFinished (runBegun s) (eventFinished (runBegun s) h) h e := eventFinished_spec found
  obtain ⟨cursor, completed, moved⟩ := completeEvent_eq (s := runBegun s) found
  have done {r : RunRecord} {c : ConsolePort} (run : r.eventsDone = min 65535 (s.run.eventsDone + 1) ∧ r.copy = none ∧ r.times = none
      ∧ r.editSet = TrackSet.none ∧ r.recordingStarted = false) :
      EventCompleted s { eventFinished (runBegun s) h with run := r, console := c } h e := by
    obtain ⟨clock, list, released, recorded, previewed, run, blocks⟩ := finished.completed (r := r) (c := c) run
    exact ⟨clock, list, released, recorded, previewed, run, blocks⟩
  rw [completed] at step ⊢
  generalize eventFinished (runBegun s) h = u at *
  refine ⟨fun hold pending => ?_, fun n pending scope => ?_, fun a z pending scope => ?_⟩
  · have held : afterPostroll { u with run := (runBegun s).run.completed cursor }
        = becomeHeld (({ u with run := (runBegun s).run.completed cursor } : State).updateRun (fun r => { r with holdPending := none }))
          hold.cause hold.machine (some .postroll) := by
      unfold afterPostroll
      rw [show ((runBegun s).run.completed cursor).holdPending = some hold from pending]
    rw [held] at step
    refine ⟨_, step, done ⟨rfl, rfl, rfl, rfl, rfl⟩, rfl, rfl, rfl, current, ?_⟩
    rw [← current]
    exact raiseNotice_noticed _ _
  · have unfound : searchScope { u with run := (runBegun s).run.completed cursor } = none := by
      unfold searchScope
      rw [show ((runBegun s).run.completed cursor).scope = some (.single n) from scope]
    have ended : afterPostroll { u with run := (runBegun s).run.completed cursor }
        = endRun { u with run := (runBegun s).run.completed cursor } := by
      unfold afterPostroll
      rw [show ((runBegun s).run.completed cursor).holdPending = none from pending, unfound]
      rfl
    rw [ended] at step
    exact ⟨_, step, done ⟨rfl, rfl, rfl, rfl, rfl⟩, rfl, rfl, raiseNotice_noticed _ _⟩
  · have next : afterPostroll { u with run := (runBegun s).run.completed cursor }
        = takeEvent { u with run := (runBegun s).run.completed cursor } (searchScope { u with run := (runBegun s).run.completed cursor }) := by
      unfold afterPostroll
      rw [show ((runBegun s).run.completed cursor).holdPending = none from pending]
    rw [next] at step
    exact ⟨step, done (r := (runBegun s).run.completed cursor) (c := u.console) ⟨rfl, rfl, rfl, rfl, rfl⟩, moved a z scope⟩

/-! ### The edit-off field at the postroll end -/

/-- When the edit-off field is also the postroll end, the step is the postroll end made from what the edit-off field leaves. -/
theorem postrollEnd_editOff {s v : State} {rt : RunTimes} {p : Nat} (waits : s.waiting.contains .run = true)
    (editing : s.run.phase = .editing) (times : s.run.times = some rt) (position : currentPosition s = some p)
    (others : ∀ x ∈ rt.editOns, x.position ≠ p) (off : rt.editOff = p) (post : rt.postrollEnd = p)
    (made : editOffField s = v) (begun : editOffField (runBegun s) = runBegun v) (waits' : v.waiting.contains .run = true)
    (postroll : v.run.phase = .postroll) (times' : v.run.times = some rt) (position' : currentPosition v = some p) :
    exec .postrollEnd s = exec .postrollEnd v ∧ exec .editOffField s = exec .postrollEnd v := by
  have quiet {w : State} (hw : w.run.phase = .editing) : syncField w = w :=
    syncField_none (deadlineDue_phase (by rw [hw]; decide))
  have due : postrollDue v = true := postrollDue_there times' position' postroll post
  have there : exec .postrollEnd v = .next (postrollField (runBegun v)) := by
    show execPostrollEnd v = _
    unfold execPostrollEnd
    rw [postroll_early postroll, if_pos (by rw [due]; simpa [runWaits] using waits'), takeField_run waits',
      runField_later (by show v.run.phase ≠ _; rw [postroll]; decide), postroll_early (s := runBegun v) postroll]
  rw [there]
  refine ⟨?_, ?_⟩
  · show execPostrollEnd s = _
    unfold execPostrollEnd
    rw [quiet editing, editOnField_none times position (.inr editing) others, made,
      if_pos (by rw [due]; simpa [runWaits] using waits), takeField_run waits,
      runField_later (by show s.run.phase ≠ _; rw [editing]; decide), quiet (w := runBegun s) editing,
      editOnField_none (s := runBegun s) times position (.inr editing) others, begun]
  · rw [exec_editOffField waits times position editing others off, begun]

/-- Settles O45: the outcomes of the postroll end, and the edit-off field made before it in the same step. -/
theorem postrollEndCompletesEvent : Obligations.PostrollEndCompletesEvent := by
  unfold Obligations.PostrollEndCompletesEvent
  refine ⟨fun s rt p h e waits postroll times position there current found => ?ends,
    fun s rt p h copy rec waits editing times position others off post current copied recorder => ⟨fun way => ?both, fun cause mode refused => ?holds⟩⟩
  case ends =>
    obtain ⟨held, ended, next⟩ := postrollEnd_outcomes waits postroll times position there current found
    refine ⟨fun hold pending => ?_, fun n pending scope => ?_, fun a z pending scope => ?_⟩
    · obtain ⟨t, step, done, shown⟩ := held hold pending
      exact ⟨t, step, done.shown, shown⟩
    · obtain ⟨t, step, done, shown⟩ := ended n pending scope
      exact ⟨t, step, done.shown, shown⟩
    · obtain ⟨step, done, cursor⟩ := next a z pending scope
      exact ⟨step, done.shown, cursor⟩
  case both =>
    have due : editOffDue s = true := editOffDue_there times position editing off
    rcases way with mode | ⟨mode, online, room⟩
    · obtain ⟨ends, offs⟩ := postrollEnd_editOff (v := enterPhase s .postroll) waits editing times position others off post
        (editOffField_preview due mode) (editOffField_preview (s := runBegun s) due mode) waits rfl times position
      have noticed : Noticed (enterPhase s .postroll) (.runPhase .postroll s.run.mode s.run.current) := raiseNotice_noticed _ _
      rw [current] at noticed
      refine ⟨_, ends, offs, ?_, ?_, fun n hn => ⟨rfl, rfl⟩, noticed, raiseNotice_onlyNotices _ _, rfl⟩
      · rw [if_neg (by rw [mode]; decide)]; rfl
      · rw [if_neg (by rw [mode]; decide), List.append_nil]; rfl
    · have tracks : currentTracks s = copy.record.tracks := by unfold currentTracks; rw [copied]
      obtain ⟨ends, offs⟩ := postrollEnd_editOff (v := enterPhase ((editPlaced s rec (.editOff (currentTracks s))).updateRun
          (fun r => { r with editSet := TrackSet.none })) .postroll) waits editing times position others off post
        (editOffField_placed due mode recorder online room) (editOffField_placed (s := runBegun s) due mode recorder online room)
        waits rfl times position
      rw [tracks] at ends offs
      have noticed : Noticed (enterPhase ((editPlaced s rec (.editOff copy.record.tracks)).updateRun
          (fun r => { r with editSet := TrackSet.none })) .postroll) (.runPhase .postroll s.run.mode s.run.current) :=
        raiseNotice_noticed _ _
      rw [current] at noticed
      refine ⟨_, ends, offs, ?_, ?_, fun n hn => ⟨State.setPort_port_other s _ hn, rfl⟩, noticed, raiseNotice_onlyNotices _ _, rfl⟩
      · rw [if_pos mode]; rfl
      · rw [if_pos mode, ← current]; exact State.setPort_port ..
  case holds =>
    have step := exec_editOffField waits times position editing others off
    have due : editOffDue (runBegun s) = true := editOffDue_there (s := runBegun s) times position editing off
    have active : (runBegun s).run.phase.active = true := by
      show s.run.phase.active = true
      rw [editing]; rfl
    rw [editOffField_refused due mode recorder refused,
      postrollField_none (postrollDue_phase (by rw [(holdRun_run active ..).1]; decide))] at step
    have noticed := holdRun_noticed active cause (some rec)
    rw [show (runBegun s).run.phase = .editing from editing, show (runBegun s).run.current = some h from current] at noticed
    exact ⟨_, step, holdRun_taken active cause (some rec), noticed⟩

end Sys2Proof.Machine
end

section
/-! What a take leaves (R108, R122 to R124, R126, R165, R169, R170). -/

namespace Sys2Proof.Machine

/-! ### The cue lines as a take loads them (R169, R170) -/

theorem insertCompare_filter (day t0 : Nat) (c : Compare) (cs : List Compare) (n : Nat) :
    (insertCompare day t0 c cs).filter (fun x => x.position == n) = (c :: cs).filter (fun x => x.position == n) := by
  induction cs with
  | nil => rfl
  | cons x xs ih =>
    unfold insertCompare
    split
    · rfl
    · rename_i later
      have apart : ¬ (x.position = n ∧ c.position = n) := fun ⟨hx, hc⟩ => later (Int.le_of_eq (by rw [hx, hc]))
      rw [List.filter_cons, ih]
      have passed {y : Compare} (hy : y.position ≠ n) : ∀ l : List Compare,
          (y :: l).filter (fun x => x.position == n) = l.filter (fun x => x.position == n) := fun l =>
        List.filter_cons_of_neg (p := fun x : Compare => x.position == n) (mt beq_iff_eq.1 hy)
      by_cases hx : x.position = n
      · have hc : c.position ≠ n := fun hc => apart ⟨hx, hc⟩
        rw [if_pos (beq_iff_eq.2 hx), passed hc, passed hc, List.filter_cons, if_pos (beq_iff_eq.2 hx)]
      · rw [if_neg (mt beq_iff_eq.1 hx), List.filter_cons, List.filter_cons, passed hx]

theorem sortCompares_filter (day t0 : Nat) (cs : List Compare) (n : Nat) :
    (sortCompares day t0 cs).filter (fun x => x.position == n) = cs.filter (fun x => x.position == n) := by
  induction cs with
  | nil => rfl
  | cons c cs ih =>
    rw [sortCompares, insertCompare_filter, List.filter_cons, ih, List.filter_cons]

/-- The order of the compares of a line: the fields from T0. -/
def CompareBefore (day t0 : Nat) (a b : Compare) : Prop := foldDiff day a.position t0 ≤ foldDiff day b.position t0

theorem insertCompare_mem {day t0 : Nat} {c x : Compare} {cs : List Compare} (h : x ∈ insertCompare day t0 c cs) : x = c ∨ x ∈ cs := by
  induction cs with
  | nil => exact .inl (List.mem_singleton.1 h)
  | cons y ys ih =>
    unfold insertCompare at h
    split at h
    · exact List.mem_cons.1 h
    · rcases List.mem_cons.1 h with rfl | h
      · exact .inr List.mem_cons_self
      · exact (ih h).imp_right (List.mem_cons_of_mem _)

theorem insertCompare_sorted {day t0 : Nat} (c : Compare) {cs : List Compare} (h : cs.Pairwise (CompareBefore day t0)) :
    (insertCompare day t0 c cs).Pairwise (CompareBefore day t0) := by
  induction cs with
  | nil => exact List.pairwise_singleton _ c
  | cons x xs ih =>
    obtain ⟨first, rest⟩ := List.pairwise_cons.1 h
    unfold insertCompare
    split
    · rename_i before
      refine List.pairwise_cons.2 ⟨fun y hy => ?_, h⟩
      rcases List.mem_cons.1 hy with rfl | hy
      · exact before
      · exact Int.le_trans before (first y hy)
    · rename_i later
      refine List.pairwise_cons.2 ⟨fun y hy => ?_, ih rest⟩
      rcases insertCompare_mem hy with rfl | hy
      · exact Int.le_of_lt (Int.not_le.1 later)
      · exact first y hy

theorem sortCompares_sorted (day t0 : Nat) (cs : List Compare) : (sortCompares day t0 cs).Pairwise (CompareBefore day t0) := by
  induction cs with
  | nil => exact .nil
  | cons c cs ih => exact insertCompare_sorted c ih

/-- The compares of one line, in the order in which they are loaded. -/
def lineCompares (day : Nat) (mode : RunMode) (r : Record) (times : RunTimes) (g : CueLineId) : List Compare :=
  sortCompares day times.t0 ((keptEntries mode g r.cues).map (fun c => ⟨firingPosition day r times c, c.width⟩))

theorem loadCues_cueLine (s : State) (mode : RunMode) (e : Event) (times : RunTimes) (g : CueLineId) :
    (loadCues s mode e times).cueLine g = (s.cueLine g).loaded (lineCompares (dayRec s) mode e.record times g) := by
  have turn (lines : Bank CueLine) (k : CueLineId) (hk : k ≠ g) (h : lines.get g = s.cueLine g) :
      (loadLineCues (dayRec s) mode e.record times lines k).get g = s.cueLine g :=
    (Bank.get_set_other lines _ (Ne.symm hk)).trans h
  refine foldl_at (g := loadLineCues (dayRec s) mode e.record times) (P := fun lines => lines.get g = s.cueLine g)
    (Q := fun lines => lines.get g = (s.cueLine g).loaded (lineCompares (dayRec s) mode e.record times g))
    turn (fun lines h => ?_) (fun lines k hk h => ?_) Unit8.all_nodup (Unit8.mem_all g) rfl
  · refine (Bank.get_set_self lines g _).trans ?_
    rw [h]
    rfl
  · exact (Bank.get_set_other lines _ (Ne.symm hk)).trans h

theorem keptEntries_eq (mode : RunMode) (g : CueLineId) (cues : List CueEntry) :
    keptEntries mode g cues = cues.filter (fun c => c.line == g && !(c.recordOnly && mode == .preview)) := by
  unfold keptEntries
  refine List.filter_congr fun c _ => ?_
  rw [Bool.and_comm (mode == .preview)]

/-- A state whose lines are those of the state at the take, loaded, has them as R169 and R170 say. -/
theorem linesLoaded_of {u t : State} {e : Event} {times : RunTimes}
    (loaded : ∀ g, t.cueLine g = (u.cueLine g).loaded (lineCompares (dayRec u) (u.run.mode.getD .preview) e.record times g)) :
    LinesLoaded u t e times := by
  intro g
  refine ⟨lineCompares (dayRec u) (u.run.mode.getD .preview) e.record times g, fun n => ?_, sortCompares_sorted .., loaded g⟩
  unfold lineCompares
  rw [sortCompares_filter, keptEntries_eq]
  congr 1
  refine List.map_congr_left fun c _ => ?_
  unfold firingPosition clampToWindow
  dsimp only
  cases c.anchor
  · rfl
  · rfl

end Sys2Proof.Machine
end

section
/-! What a take leaves (R108, R122 to R124, R126, R165): its claims and its run locates. -/

namespace Sys2Proof.Machine

/-! ### The claims (R108) -/

theorem claimMachine_ports (s : State) (m : MachineId) : (claimMachine s m).ports = s.ports := by
  unfold claimMachine
  split
  · rw [reportLocateFailure_ports, changeMachine_ports]
  · exact changeMachine_ports ..

theorem claimMachine_record (s : State) (m : MachineId) :
    ((claimMachine s m).machine m).claimed = true ∧ ((claimMachine s m).machine m).params = (s.machine m).params := by
  unfold claimMachine
  split
  · rw [reportLocateFailure_machine, changeMachine_machine]
    exact ⟨rfl, rfl⟩
  · rw [changeMachine_machine]
    exact ⟨rfl, rfl⟩

theorem claimMachine_others (s : State) (m : MachineId) : OthersKept s (claimMachine s m) m := by
  intro n hn
  refine ⟨congrArg (fun ports => Bank.get ports n) (claimMachine_ports s m), ?_⟩
  unfold claimMachine
  split
  · rw [reportLocateFailure_machine, changeMachine_machine_other _ _ hn]
  · exact changeMachine_machine_other _ _ hn

/-- What the claims of a list of machines leave. -/
structure MachinesClaimed (s t : State) (ms : List MachineId) : Prop where
  only : MachinesOnly s t
  ports : t.ports = s.ports
  claimed : ∀ m ∈ ms, (t.machine m).claimed = true
  others : ∀ m, m ∉ ms → t.machine m = s.machine m
  params : ∀ m, (t.machine m).params = (s.machine m).params

theorem foldl_claims (ms : List MachineId) (s : State) : MachinesClaimed s (ms.foldl claimMachine s) ms where
  only := .foldl claimMachine_machinesOnly ms s
  ports := foldl_rel (R := fun s t : State => t.ports = s.ports) (fun _ => rfl)
    (fun a b c (h : b.ports = a.ports) (k : c.ports = b.ports) => k.trans h) claimMachine_ports ms s
  claimed m hm := by
    refine foldl_establishes (f := claimMachine) (A := fun _ => True) (Q := fun t => (t.machine m).claimed = true)
      (fun _ _ _ => trivial) (fun t n _ h => ?_) (fun t _ => (claimMachine_record t m).1) hm trivial
    by_cases hn : m = n
    · rw [hn]; exact (claimMachine_record t n).1
    · rw [(claimMachine_others t n m hn).2]; exact h
  others m hm := (foldl_others claimMachine_others s hm).2
  params m := by
    refine foldl_rel (R := fun s t : State => (t.machine m).params = (s.machine m).params) (fun _ => rfl)
      (fun a b c (h : (b.machine m).params = (a.machine m).params) (k : (c.machine m).params = (b.machine m).params) => k.trans h)
      (fun t n => ?_) ms s
    by_cases hn : m = n
    · rw [hn]; exact (claimMachine_record t n).2
    · rw [(claimMachine_others t n m hn).2]

/-! ### The event put into the run (R124) -/

/-- The state in which the event of a take is RUNNING and the run holds its copy; `s` names it as current. -/
def eventTaken (s : State) (e : Event) (times : RunTimes) : State :=
  (changeEventState (s.updateRun (fun r => { r with inForce := some s.runParams, times := some times })) e.handle
    (fun x => x.withState .running x.flags)).updateRun (fun r =>
      { r with
        copy := findEvent (changeEventState (s.updateRun (fun r => { r with inForce := some s.runParams, times := some times }))
          e.handle (fun x => x.withState .running x.flags)) e.handle
        prior := some ⟨e.state, e.flags⟩ })

/-- What it leaves. -/
structure EventTaken (s t : State) (e : Event) (times : RunTimes) : Prop where
  frame : t = { s with
    store := t.store, console := t.console
    run := { s.run with
      inForce := some s.runParams, times := some times, copy := some e.taken, prior := some ⟨e.state, e.flags⟩ } }
  found : findEvent t e.handle = some e.taken
  list : listOf t = listOf s

theorem eventTaken_spec {s : State} {e : Event} (times : RunTimes) (found : findEvent s e.handle = some e) :
    EventTaken s (eventTaken s e times) e times := by
  have key (x : Event) := x.withState_key .running x.flags
  have changed : findEvent (changeEventState (s.updateRun (fun r => { r with inForce := some s.runParams, times := some times }))
      e.handle (fun x => x.withState .running x.flags)) e.handle = some e.taken :=
    changeEventState_found (fun x => (key x).1) (by exact found)
  have list := (changeEventState_listOf (s.updateRun (fun r => { r with inForce := some s.runParams, times := some times }))
    e.handle _ key).1
  obtain ⟨frame, -⟩ := changeEventState_frame (s.updateRun (fun r => { r with inForce := some s.runParams, times := some times }))
    e.handle (fun x => x.withState .running x.flags)
  unfold eventTaken
  rw [changed]
  generalize changeEventState (s.updateRun (fun r => { r with inForce := some s.runParams, times := some times }))
    e.handle (fun x => x.withState .running x.flags) = u at *
  refine ⟨?_, changed, list⟩
  rw [frame]
  rfl

/-! ### The state in which the run locates are begun -/

/-- The run record of a take before its run locates. -/
def RunRecord.entered (r : RunRecord) (p : RunParams) (e : Event) (times : RunTimes) : RunRecord :=
  { r with
    phase := .cueing, inForce := some p, times := some times, copy := some e.taken, prior := some ⟨e.state, e.flags⟩
    editSet := TrackSet.none, recordingStarted := false, cueingCount := 0, deadlinePassed := false }

/-- The programme and the cues loaded, and the phase entered. -/
def programmeEntered (s : State) (e : Event) (mode : RunMode) (times : RunTimes) : State :=
  enterPhase ((loadCues (loadProgramme s e.taken) mode e times).updateRun (fun r =>
    { r with editSet := TrackSet.none, recordingStarted := false, cueingCount := 0, deadlinePassed := false })) .cueing

theorem programmeEntered_frame (s : State) (e : Event) (mode : RunMode) (times : RunTimes) :
    programmeEntered s e mode times = { s with
      effects := { s.effects with programme := some e.taken, stepper := none }
      cues := (loadCues (loadProgramme s e.taken) mode e times).cues, console := (programmeEntered s e mode times).console
      run := { s.run with
        phase := .cueing, editSet := TrackSet.none, recordingStarted := false, cueingCount := 0, deadlinePassed := false } } := rfl

/-- The state in which the run locates are begun. -/
def takeEntered (s : State) (e : Event) (times : RunTimes) : State :=
  programmeEntered ((eventMachines (eventTaken s e times) e.record).foldl claimMachine (eventTaken s e times)) e
    (s.run.mode.getD .preview) times

/-- What a take leaves before its run locates; `s` names its event as current. -/
structure TakeEntered (s w : State) (e : Event) (times : RunTimes) : Prop where
  frame : w = { s with
    store := w.store, machines := w.machines, run := s.run.entered s.runParams e times
    effects := { s.effects with programme := some e.taken, stepper := none }, cues := w.cues, console := w.console }
  cueSet : w.cues.cueSet = some ⟨e.handle, s.run.mode.getD .preview⟩
  stop : w.cues.stop = s.cues.stop
  lines : ∀ g, w.cueLine g = (s.cueLine g).loaded (lineCompares (dayRec s) (s.run.mode.getD .preview) e.record times g)
  claimed : ∀ m ∈ eventMachines s e.record, (w.machine m).claimed = true
  others : ∀ m, m ∉ eventMachines s e.record → w.machine m = s.machine m
  params : ∀ m, (w.machine m).params = (s.machine m).params
  found : findEvent w e.handle = some e.taken
  list : listOf w = listOf s

theorem takeEntered_spec {s : State} {e : Event} (times : RunTimes) (found : findEvent s e.handle = some e) :
    TakeEntered s (takeEntered s e times) e times := by
  have taken := eventTaken_spec times found
  have recorder : (eventTaken s e times).recorder = s.recorder := (congrArg State.recorder taken.frame).trans rfl
  have machines : eventMachines (eventTaken s e times) e.record = eventMachines s e.record := by
    unfold eventMachines
    rw [recorder]
  have claims := foldl_claims (eventMachines s e.record) (eventTaken s e times)
  have made : takeEntered s e times = programmeEntered ((eventMachines s e.record).foldl claimMachine (eventTaken s e times)) e
      (s.run.mode.getD .preview) times := by
    unfold takeEntered
    rw [machines]
  have record (m : MachineId) : (eventTaken s e times).machine m = s.machine m :=
    congrArg (fun b => Bank.get b m) ((congrArg State.machines taken.frame).trans rfl)
  rw [made]
  generalize (eventMachines s e.record).foldl claimMachine (eventTaken s e times) = v at *
  have lines := loadCues_cueLine (loadProgramme v e.taken) (s.run.mode.getD .preview) e times
  have day : dayRec (loadProgramme v e.taken) = dayRec s :=
    dayRec_congr (claims.only.recorder.trans recorder) (claims.only.timeline.trans ((congrArg State.timeline taken.frame).trans rfl))
      fun n => (claims.params n).trans (congrArg MachineRec.params (record n))
  rw [day] at lines
  have effects : v.effects = s.effects := claims.only.effects.trans ((congrArg State.effects taken.frame).trans rfl)
  have run : v.run = { s.run with
      inForce := some s.runParams, times := some times, copy := some e.taken, prior := some ⟨e.state, e.flags⟩ } :=
    claims.only.run.trans ((congrArg State.run taken.frame).trans rfl)
  have placed : v = { s with
      store := v.store, machines := v.machines, console := v.console
      run := { s.run with
        inForce := some s.runParams, times := some times, copy := some e.taken, prior := some ⟨e.state, e.flags⟩ } } := by
    have ports : v.ports = s.ports := claims.ports.trans ((congrArg State.ports taken.frame).trans rfl)
    have frame := claims.only.1
    rw [taken.frame, ports] at frame
    have store : v.store = (eventTaken s e times).store := claims.only.store
    rw [← store] at frame
    exact frame
  have entered (c : CueUnit) (k : ConsolePort) :
      ({ v with
        effects := { s.effects with programme := some e.taken, stepper := none }, cues := c, console := k
        run := s.run.entered s.runParams e times } : State)
        = { s with
            store := v.store, machines := v.machines, run := s.run.entered s.runParams e times
            effects := { s.effects with programme := some e.taken, stepper := none }, cues := c, console := k } :=
    congrArg (fun x : State => { x with
      effects := { s.effects with programme := some e.taken, stepper := none }, cues := c, console := k
      run := s.run.entered s.runParams e times }) placed
  have cues : v.cues = s.cues := claims.only.cues.trans ((congrArg State.cues taken.frame).trans rfl)
  have frame := programmeEntered_frame v e (s.run.mode.getD .preview) times
  have loaded : (programmeEntered v e (s.run.mode.getD .preview) times).cues
      = (loadCues (loadProgramme v e.taken) (s.run.mode.getD .preview) e times).cues := (congrArg State.cues frame).trans rfl
  have cueSet : (loadCues (loadProgramme v e.taken) (s.run.mode.getD .preview) e times).cues.cueSet
      = some ⟨e.handle, s.run.mode.getD .preview⟩ := rfl
  have stop : (loadCues (loadProgramme v e.taken) (s.run.mode.getD .preview) e times).cues.stop = v.cues.stop := rfl
  generalize programmeEntered v e (s.run.mode.getD .preview) times = w at *
  have store : w.store = v.store := (congrArg State.store frame).trans rfl
  have record' : w.machines = v.machines := (congrArg State.machines frame).trans rfl
  have machine (m : MachineId) : w.machine m = v.machine m := congrArg (fun b => Bank.get b m) record'
  refine ⟨?_, ?_, ?_, fun g => ?_, fun m hm => ?_, fun m hm => ?_, fun m => ?_, ?_, ?_⟩
  · rw [effects, run, ← loaded] at frame
    rw [store, record']
    exact frame.trans (entered w.cues w.console)
  · rw [loaded, cueSet]
  · rw [loaded, stop, cues]
  · unfold State.cueLine at lines ⊢
    rw [loaded, lines, ← cues]
    rfl
  · rw [machine]; exact claims.claimed m hm
  · rw [machine]; exact (claims.others m hm).trans (record m)
  · rw [machine]; exact (claims.params m).trans (congrArg MachineRec.params (record m))
  · exact (congrArg (fun l => findEvent { s with store := l } e.handle) (store.trans claims.only.store)).trans taken.found
  · exact (congrArg (fun l => listOf { s with store := l }) (store.trans claims.only.store)).trans taken.list

end Sys2Proof.Machine
end

section
/-! What a take leaves (R122, R123, R126): its run locates, and its three outcomes. -/

namespace Sys2Proof.Machine

/-! ### The run locates (R102, R126) -/

theorem locateTarget_congr {s t : State} (recorder : t.recorder = s.recorder) (timeline : t.timeline = s.timeline)
    (params : ∀ n, (t.machine n).params = (s.machine n).params) (r : Record) (m : MachineId) (t0 : Nat) :
    locateTarget t r m t0 = locateTarget s r m t0 := by
  have day : dayOf t m = dayOf s m := congrArg (fun p : MachineParams => p.mode.day) (params m)
  unfold locateTarget machineTerms sourceTarget
  rw [recorder, day, dayRec_congr recorder timeline params]

/-- What a run locate that has been begun leaves. -/
structure LocateBegun (s t : State) (m : MachineId) (target : Nat) : Prop where
  only : MachinesOnly s t
  others : OthersKept s t m
  record : t.machine m = { (s.machine m).countsCleared with
    control := .locating, locate := some ⟨target, .run, false, 0⟩, lastSpeed := none }

theorem startRunLocate_begun {s : State} {m : MachineId} (released : s.stopAsserted = false) (takes : TakesMotion s m) (target : Nat) :
    ∃ t, startRunLocate s m target = .ok t ∧ LocateBegun s t m target := by
  obtain ⟨p, -, placed⟩ := placeMotion_taken takes (.locate target)
  refine ⟨changeMachine (s.setPort m p) m (fun x =>
    { x.countsCleared with control := .locating, locate := some ⟨target, .run, false, 0⟩, lastSpeed := none }), ?_,
    (MachinesOnly.setPort s m p).trans (changeMachine_machinesOnly _ m _), fun n hn => ?_, changeMachine_machine ..⟩
  · unfold startRunLocate startLocate
    rw [released, placed]
    rfl
  · rw [changeMachine_port, changeMachine_machine_other _ _ hn]
    exact ⟨State.setPort_port_other s p hn, rfl⟩

/-- What the run locates of a list of machines leave. -/
structure LocatesBegun (s t : State) (ms : List MachineId) (r : Record) (t0 : Nat) : Prop where
  only : MachinesOnly s t
  begun : ∀ m ∈ ms, (t.machine m).control = .locating
    ∧ (t.machine m).locate = some ⟨locateTarget s r m t0, .run, false, 0⟩ ∧ (t.machine m).claimed = (s.machine m).claimed
  others : ∀ m, m ∉ ms → t.machine m = s.machine m ∧ t.port m = s.port m

theorem beginLocates_begun {r : Record} {t0 : Nat} {ms : List MachineId} (once : ms.Nodup) {s : State}
    (released : s.stopAsserted = false) (takes : ∀ m ∈ ms, TakesMotion s m) : LocatesBegun s (beginLocates s r t0 ms) ms r t0 := by
  induction ms generalizing s with
  | nil => exact ⟨.refl s, fun _ h => (List.not_mem_nil h).elim, fun _ _ => ⟨rfl, rfl⟩⟩
  | cons m ms ih =>
    obtain ⟨first, rest⟩ := List.nodup_cons.1 once
    obtain ⟨t, started, begun⟩ := startRunLocate_begun released (takes m List.mem_cons_self) (locateTarget s r m t0)
    have next : beginLocates s r t0 (m :: ms) = beginLocates t r t0 ms := by
      rw [beginLocates, started]
    have apart {n : MachineId} (hn : n ∈ ms) : n ≠ m := fun h => first (h ▸ hn)
    have params (n : MachineId) : (t.machine n).params = (s.machine n).params := by
      by_cases hn : n = m
      · rw [hn, begun.record]; rfl
      · rw [(begun.others n hn).2]
    have still (n : MachineId) (hn : n ∈ ms) : TakesMotion t n := by
      unfold TakesMotion State.link
      rw [(begun.others n (apart hn)).1]
      exact takes n (List.mem_cons_of_mem _ hn)
    have stop : t.stopAsserted = false := (congrArg (fun c : CueUnit => c.stop == .asserted) begun.only.cues).trans released
    have later := ih rest stop still
    rw [next]
    refine ⟨begun.only.trans later.only, fun n hn => ?_, fun n hn => ?_⟩
    · rcases List.mem_cons.1 hn with rfl | hn
      · obtain ⟨machine, -⟩ := later.others n first
        rw [machine, begun.record]
        exact ⟨rfl, rfl, rfl⟩
      · obtain ⟨control, locate, claimed⟩ := later.begun n hn
        rw [locateTarget_congr begun.only.recorder begun.only.timeline params] at locate
        rw [(begun.others n (apart hn)).2] at claimed
        exact ⟨control, locate, claimed⟩
    · obtain ⟨hm, hms⟩ := List.ne_and_not_mem_of_not_mem_cons hn
      obtain ⟨machine, port⟩ := later.others n hms
      obtain ⟨port', machine'⟩ := begun.others n hm
      exact ⟨machine.trans machine', port.trans port'⟩

/-! ### The outcomes of a take (R122 to R124) -/

/-- The state in which the event of a take is current. -/
def takeNamed (s : State) (e : Event) : State := s.updateRun (fun r => { r with current := some e.handle, holdCause := none })

theorem firstOffline_congr {s t : State} (machines : t.machines = s.machines) (ports : t.ports = s.ports) (ms : List MachineId) :
    firstOffline t ms = firstOffline s ms := by
  induction ms with
  | nil => rfl
  | cons m ms ih =>
    unfold firstOffline State.link State.machine State.port
    rw [ih, machines, ports]

theorem validateTake_named (s : State) (e : Event) (r : Record) (times : RunTimes) :
    validateTake (takeNamed s e) r times = validateTake s r times := by
  unfold validateTake
  rw [firstOffline_congr (s := s) (t := takeNamed s e) rfl rfl]
  rfl

theorem takeEvent_fails {u : State} {e : Event} {cause : HoldCause} {m : Option MachineId}
    (fails : validateTake u e.record (runTimesOf (dayRec u) (editDelay u) u.runParams e.record) = some (cause, m)) :
    takeEvent u (some e) = takeHold (takeNamed u e) cause m := by
  have failed := (validateTake_named u e _ _).trans fails
  unfold takeNamed at failed
  unfold takeEvent
  dsimp only
  rw [failed]
  rfl

theorem takeEvent_passes {u : State} {e : Event}
    (valid : validateTake u e.record (runTimesOf (dayRec u) (editDelay u) u.runParams e.record) = none) :
    takeEvent u (some e) = makeTake (takeNamed u e) e (runTimesOf (dayRec u) (editDelay u) u.runParams e.record) := by
  have passed := (validateTake_named u e _ _).trans valid
  unfold takeNamed at passed
  unfold takeEvent
  dsimp only
  rw [passed]
  rfl

theorem makeTake_eq (s : State) (e : Event) (times : RunTimes) :
    makeTake s e times
      = beginLocates (takeEntered s e times) e.record times.t0 (eventMachines (takeEntered s e times) e.record) := rfl

theorem takeEvent_ended (u : State) : TakeEnded u (takeEvent u none) :=
  ⟨rfl, rfl, rfl, rfl, rfl, rfl, ⟨rfl, rfl, rfl, rfl, rfl⟩, raiseNotice_noticed _ _, rfl⟩

theorem takeEvent_held {u : State} {e : Event} {cause : HoldCause} {m : Option MachineId}
    (fails : validateTake u e.record (runTimesOf (dayRec u) (editDelay u) u.runParams e.record) = some (cause, m)) :
    TakeHeld u (takeEvent u (some e)) e cause m := by
  rw [takeEvent_fails fails]
  exact ⟨rfl, rfl, rfl, rfl, rfl, rfl, ⟨rfl, rfl, rfl, rfl, rfl⟩, raiseNotice_noticed _ _, rfl⟩

theorem takeEvent_started {u : State} {e : Event} (opens : TakeOpen u e) : TakeStarted u (takeEvent u (some e)) e := by
  obtain ⟨found, once, valid, takes⟩ := opens
  have released := validateTake_released valid
  rw [takeEvent_passes valid, makeTake_eq]
  unfold TakeStarted
  generalize runTimesOf (dayRec u) (editDelay u) u.runParams e.record = times
  have entered : TakeEntered (takeNamed u e) (takeEntered (takeNamed u e) e times) e times := takeEntered_spec times found
  generalize takeEntered (takeNamed u e) e times = w at *
  have recorder : w.recorder = u.recorder := (congrArg State.recorder entered.frame).trans rfl
  have timeline : w.timeline = u.timeline := (congrArg State.timeline entered.frame).trans rfl
  have ports : w.ports = u.ports := (congrArg State.ports entered.frame).trans rfl
  have machines : eventMachines w e.record = eventMachines u e.record := by unfold eventMachines; rw [recorder]
  have stop : w.stopAsserted = false := (congrArg (· == StopState.asserted) entered.stop).trans released
  have begun := beginLocates_begun (r := e.record) (t0 := times.t0) once (s := w) stop fun m hm => by
    unfold TakesMotion State.link State.port
    rw [ports]
    exact takes m hm
  rw [machines]
  generalize beginLocates w e.record times.t0 (eventMachines u e.record) = t at *
  have run : t.run = (takeNamed u e).run.entered u.runParams e times :=
    begun.only.run.trans ((congrArg State.run entered.frame).trans rfl)
  have cues : t.cues = w.cues := begun.only.cues
  have store : t.store = w.store := begun.only.store
  refine ⟨?_, ?_, fun m hm => ?_, fun m hm => ?_, ?_, ?_, ?_, ?_, ?_, linesLoaded_of fun g => ?_, ?_, ?_, ?_⟩
  · rw [run]; exact ⟨rfl, rfl, rfl, rfl, rfl, rfl, rfl, rfl, rfl, rfl⟩
  · unfold RunKept; rw [run]; exact ⟨rfl, rfl, rfl, rfl, rfl⟩
  · obtain ⟨control, locate, claimed⟩ := begun.begun m hm
    refine ⟨claimed.trans (entered.claimed m hm), control, ?_⟩
    rw [locate, locateTarget_congr recorder timeline entered.params]
  · obtain ⟨machine, port⟩ := begun.others m hm
    exact ⟨machine.trans (entered.others m hm), port.trans (congrArg (fun b => Bank.get b m) ports)⟩
  · exact (congrArg (fun l => findEvent { u with store := l } e.handle) store).trans entered.found
  · exact (congrArg (fun l => listOf { u with store := l }) store).trans entered.list
  · exact begun.only.effects.trans ((congrArg State.effects entered.frame).trans rfl)
  · rw [cues]; exact entered.cueSet
  · rw [cues]; exact entered.stop
  · unfold State.cueLine
    rw [cues]
    exact entered.lines g
  · exact begun.only.timeline.trans timeline
  · exact begun.only.recorder.trans recorder
  · exact begun.only.runParams.trans ((congrArg State.runParams entered.frame).trans rfl)

end Sys2Proof.Machine
end

section
/-! The statements on RUN and RESUME (R121 to R124, R138, R139). -/

namespace Sys2Proof.Machine

/-! ### A take that answers a request -/

theorem validateTake_dequeued (s : State) (rest : List RequestMessage) (r : Record) (times : RunTimes) :
    validateTake (dequeued s rest) r times = validateTake s r times := by
  unfold validateTake
  rw [firstOffline_congr (s := s) (t := dequeued s rest) rfl rfl]
  rfl

theorem takeOpen_dequeued {u : State} {e : Event} (h : TakeOpen u e) (rest : List RequestMessage) : TakeOpen (dequeued u rest) e := by
  obtain ⟨found, once, valid, takes⟩ := h
  exact ⟨found, once, (validateTake_dequeued u rest _ _).trans valid, takes⟩

theorem replyTo_frame {u t : State} {q : RequestMessage} {rest : List RequestMessage} {result : Result} {data : List Byte}
    (frame : t = { dequeued u rest with run := t.run, console := t.console }) :
    replyTo q ⟨t, result, data⟩
      = { u with run := (replyTo q ⟨t, result, data⟩).run, console := (replyTo q ⟨t, result, data⟩).console } := by
  rw [replyTo_replied]
  exact congrArg (replied q t.console.inbound result data) frame

/-- The outcomes of a take from `u` that answers a request. -/
structure TakeAnswered (c : Instr) (s u : State) (q : RequestMessage) (rest : List RequestMessage) (found : Option Event)
    (result : Result) (data : List Byte) : Prop where
  ended : found = none → ∃ t, exec c s = .next t ∧ Replied s t q rest result data ∧ TakeEnded u t
  started : ∀ e, found = some e → TakeOpen u e → ∃ t, exec c s = .next t ∧ Replied s t q rest result data ∧ TakeStarted u t e
  held : ∀ e cause m, found = some e →
    validateTake u e.record (runTimesOf (dayRec u) (editDelay u) u.runParams e.record) = some (cause, m) →
    ∃ t, exec c s = .next t ∧ Replied s t q rest result data ∧ TakeHeld u t e cause m

theorem takeAnswered_of {c : Instr} {s : State} {q : RequestMessage} {rest : List RequestMessage} {r : RunRecord}
    {found : Option Event} {result : Result} {data : List Byte}
    (served : exec c s = .next (replyTo q ⟨takeEvent (dequeued { s with run := r } rest) found, result, data⟩)) :
    TakeAnswered c s { s with run := r } q rest found result data := by
  have link : OnlyNotices (dequeued s rest) (takeEvent (dequeued { s with run := r } rest) found) := (takeEvent_step _ _).link
  have replied := link_replied (q := q) link result data
  refine ⟨fun none => ?_, fun e some opens => ?_, fun e cause m some fails => ?_⟩
  · rw [none] at served replied
    obtain ⟨idle, current, copy, prior, times, cause, kept, noticed, frame⟩ := takeEvent_ended (dequeued { s with run := r } rest)
    generalize takeEvent (dequeued { s with run := r } rest) Option.none = t at *
    exact ⟨_, served, replied, idle, current, copy, prior, times, cause, kept, noticed, replyTo_frame frame⟩
  · rw [some] at served replied
    have started := takeEvent_started (takeOpen_dequeued opens rest)
    generalize takeEvent (dequeued { s with run := r } rest) (Option.some e) = t at *
    exact ⟨_, served, replied, started⟩
  · rw [some] at served replied
    obtain ⟨phase, current, named, copy, prior, times, kept, noticed, frame⟩ :=
      takeEvent_held (u := dequeued { s with run := r } rest) ((validateTake_dequeued _ rest _ _).trans fails)
    generalize takeEvent (dequeued { s with run := r } rest) (Option.some e) = t at *
    exact ⟨_, served, replied, phase, current, named, copy, prior, times, kept, noticed, replyTo_frame frame⟩

/-- The same, with the step and its reply taken together. -/
theorem TakeAnswered.grouped {c : Instr} {s u : State} {q : RequestMessage} {rest : List RequestMessage} {found : Option Event}
    {result : Result} {data : List Byte} (h : TakeAnswered c s u q rest found result data) :
    (found = none → ∃ t, (exec c s = .next t ∧ Replied s t q rest result data) ∧ TakeEnded u t)
      ∧ (∀ e, found = some e → TakeOpen u e →
          ∃ t, (exec c s = .next t ∧ Replied s t q rest result data) ∧ TakeStarted u t e)
      ∧ ∀ e cause m, found = some e →
        validateTake u e.record (runTimesOf (dayRec u) (editDelay u) u.runParams e.record) = some (cause, m) →
        ∃ t, (exec c s = .next t ∧ Replied s t q rest result data) ∧ TakeHeld u t e cause m := by
  simp only [and_assoc]
  exact ⟨h.ended, h.started, h.held⟩

/-! ### RUN (R121) -/

section run

variable {s : State} {q : RequestMessage} {rest : List RequestMessage} {n : Nat} {mode : RunMode} {scope : ScopeBytes}
  {c : ConvertedScope}

theorem exec_run (head : HeadIs s q rest (.run n scope)) (converted : convertScope s scope = .ok c) (known : runModeOf? n = some mode) :
    (∀ e, runRefusal s c.scope = some e → Refuses .run s q rest e)
      ∧ (runRefusal s c.scope = none →
        exec .run s = .next (replyTo q ⟨startRun (dequeued s rest) mode c.scope, acceptedOr c.advanced, c.used⟩)) := by
  have served := exec_served (c := .run) head rfl rfl
  have converted' : convertScope (dequeued s rest) scope = .ok c := converted
  refine ⟨fun e refused => refuses_of served ?_, fun passed => ?_⟩
  · unfold answerRun
    rw [converted', known]
    dsimp only
    rw [show runRefusal (dequeued s rest) c.scope = some e from refused]
  · rw [served]
    unfold answerRun
    rw [converted', known]
    dsimp only
    rw [show runRefusal (dequeued s rest) c.scope = none from passed]

theorem runRefusal_busy (busy : s.run.phase ≠ .idle) (scope : Scope) : runRefusal s scope = some .busy := by
  unfold runRefusal
  rw [if_pos (by rw [show runIdle s = false from by simpa [runIdle] using busy]; rfl)]

theorem runRefusal_unrecorded (idle : s.run.phase = .idle) (unset : s.recorder = none) (scope : Scope) :
    runRefusal s scope = some .noRecorder := by
  unfold runRefusal
  rw [(runIdle_iff s).2 idle, unset]
  rfl

theorem runRefusal_range (idle : s.run.phase = .idle) (set : s.recorder ≠ none) (a z : Nat) :
    runRefusal s (.range a z) = if z < a then some .range else none := by
  obtain ⟨m, recorder⟩ := Option.ne_none_iff_exists'.1 set
  unfold runRefusal
  rw [(runIdle_iff s).2 idle, recorder]
  rfl

theorem runRefusal_single (idle : s.run.phase = .idle) (set : s.recorder ≠ none) (h : Nat) :
    runRefusal s (.single h) = if (findEvent s h).isNone then some .noEvent else none := by
  obtain ⟨m, recorder⟩ := Option.ne_none_iff_exists'.1 set
  unfold runRefusal
  rw [(runIdle_iff s).2 idle, recorder]
  rfl

end run

/-- The state at the first take of a run. -/
theorem startRun_range (s : State) (rest : List RequestMessage) (mode : RunMode) (first last : Nat) :
    startRun (dequeued s rest) mode (.range first last)
      = takeEvent (dequeued { s with run := s.run.started mode (.range first last) } rest)
          (takeSearch { s with run := s.run.started mode (.range first last) } mode first last ⟨first, none⟩) := rfl

theorem startRun_single (s : State) (rest : List RequestMessage) (mode : RunMode) (h : Nat) :
    startRun (dequeued s rest) mode (.single h)
      = takeEvent (dequeued { s with run := s.run.started mode (.single h) } rest) (findEvent s h) := rfl

/-- Settles O46: the refusals in order, and the first take of a scope that passes them. -/
theorem runMakesFirstTake : Obligations.RunMakesFirstTake := by
  unfold Obligations.RunMakesFirstTake
  intro s q rest n mode scope c head converted known
  obtain ⟨refused, passed⟩ := exec_run head converted known
  refine ⟨fun busy => refused _ (runRefusal_busy busy _), fun idle unset => refused _ (runRefusal_unrecorded idle unset _),
    fun idle set => ⟨fun a z range empty => refused _ ?_, fun h single gone => refused _ ?_, fun first last h which live => ?_⟩⟩
  · rw [range, runRefusal_range idle set, if_pos empty]
  · rw [single, runRefusal_single idle set, gone]
    rfl
  · intro u found answered
    rcases which with single | ⟨range, order⟩
    · have there : (findEvent s h).isNone = false := by
        rw [← Option.not_isSome, live h single]
        rfl
      have step := passed (by rw [single, runRefusal_single idle set, there]; rfl)
      rw [single, startRun_single] at step
      have state : u = { s with run := s.run.started mode (.single h) } := by
        simp only [u, single, reduceCtorEq, if_false]
        rfl
      have event : found = findEvent s h := by simp only [found, single, reduceCtorEq, if_false]
      have outcomes := takeAnswered_of step
      rw [← state, ← event] at outcomes
      exact outcomes.grouped
    · have step := passed (by rw [range, runRefusal_range idle set, if_neg (by omega)])
      rw [range, startRun_range] at step
      have state : u = { s with run := s.run.started mode (.range first last) } := by
        simp only [u, range, if_true]
        rfl
      have event : found = takeSearch u mode first last ⟨first, none⟩ := by simp only [found, range, if_true]
      have outcomes := takeAnswered_of step
      rw [← state, ← event] at outcomes
      exact outcomes.grouped

/-! ### RESUME (R138, R139) -/

section resume

variable {s : State} {q : RequestMessage} {rest : List RequestMessage}

theorem exec_resumeRetry {e : Event} (head : HeadIs s q rest .resumeRetry) (held : s.run.phase = .held)
    (current : s.run.current.bind (findEvent s) = some e) :
    TakeAnswered .resumeRetry s s q rest (some e) .accepted [] := by
  have served := exec_served (c := .resumeRetry) head rfl rfl
  have answered : answerResumeRetry (dequeued s rest) = ⟨takeEvent (dequeued s rest) (some e), .accepted, []⟩ := by
    unfold answerResumeRetry
    rw [if_neg (by rw [show runHeld (dequeued s rest) = true from beq_iff_eq.2 held]; decide),
      show currentEvent (dequeued s rest) = some e from current]
  rw [answered] at served
  exact takeAnswered_of (r := s.run) served

/-- The state in which RESUME SKIP makes its take; the cursor is moved past the current event in RANGE scope. -/
theorem skipCurrent_range {a z : Nat} {cursor : Cursor} (scope : s.run.scope = some (.range a z))
    (moved : ∀ e, s.run.current.bind (findEvent s) = some e → cursor = advancedCursor s e)
    (stays : s.run.current.bind (findEvent s) = none → cursor = s.run.cursor) :
    skipCurrent s = { s with run := { s.run with holdCause := none, cursor := cursor } } := by
  unfold skipCurrent
  cases current : s.run.current with
  | none =>
    rw [stays (by rw [current]; rfl)]
    rfl
  | some h =>
    rw [current] at moved stays
    have range : advanceInRange (s.updateRun (fun r => { r with holdCause := none })) h
        = advanceCursor (s.updateRun (fun r => { r with holdCause := none })) h := by
      unfold advanceInRange
      rw [show (s.updateRun (fun r => { r with holdCause := none })).run.scope = some (.range a z) from scope]
    dsimp only
    rw [range]
    cases found : findEvent s h with
    | none =>
      rw [advanceCursor_gone (by exact found), stays found]
      rfl
    | some e =>
      rw [advanceCursor_found (s := s.updateRun (fun r => { r with holdCause := none })) (by exact found), moved e found]
      rfl

theorem skipCurrent_single {n : Nat} (scope : s.run.scope = some (.single n)) :
    skipCurrent s = { s with run := { s.run with holdCause := none } } := by
  unfold skipCurrent advanceInRange
  cases s.run.current with
  | none => rfl
  | some h =>
    dsimp only
    rw [show (s.updateRun (fun r => { r with holdCause := none })).run.scope = some (.single n) from scope]
    rfl

theorem answerResumeSkip_held (held : s.run.phase = .held) :
    answerResumeSkip s = ⟨takeEvent (skipCurrent s) (searchScope (skipCurrent s)), .accepted, []⟩ := by
  unfold answerResumeSkip
  rw [if_neg (by rw [show runHeld s = true from beq_iff_eq.2 held]; decide)]

theorem resume_notHeld (other : s.run.phase ≠ .held) :
    (HeadIs s q rest .resumeRetry → Refuses .resumeRetry s q rest .notHeld)
      ∧ (HeadIs s q rest .resumeSkip → Refuses .resumeSkip s q rest .notHeld) := by
  have still : runHeld (dequeued s rest) = false := beq_eq_false_iff_ne.2 other
  refine ⟨fun head => refuses_of (exec_served (c := .resumeRetry) head rfl rfl) ?_,
    fun head => refuses_of (exec_served (c := .resumeSkip) head rfl rfl) ?_⟩
  · unfold answerResumeRetry
    rw [still]
    rfl
  · unfold answerResumeSkip
    rw [still]
    rfl

end resume

/-- Settles O48: RETRY takes the current event from the state as it stands, SKIP the next one from the state past it. -/
theorem resumeTakesAgain : Obligations.ResumeTakesAgain := by
  unfold Obligations.ResumeTakesAgain
  intro s q rest
  refine ⟨resume_notHeld, fun held => ⟨fun head gone => ?_, fun e head current => ?_, fun n head scope => ?_,
    fun a z cursor head scope moved stays => ?_⟩⟩
  · refine refuses_of (exec_served (c := .resumeRetry) head rfl rfl) ?_
    unfold answerResumeRetry
    rw [if_neg (by rw [show runHeld (dequeued s rest) = true from beq_iff_eq.2 held]; decide),
      show currentEvent (dequeued s rest) = none from gone]
  · have outcomes := exec_resumeRetry head held current
    exact ⟨fun opens => outcomes.started e rfl opens, fun cause m fails => outcomes.held e cause m rfl fails⟩
  · have served := exec_served (c := .resumeSkip) head rfl rfl
    rw [answerResumeSkip_held (by exact held), skipCurrent_single (s := dequeued s rest) scope] at served
    have unfound : searchScope (dequeued { s with run := { s.run with holdCause := none } } rest) = none := by
      unfold searchScope
      rw [show (dequeued { s with run := { s.run with holdCause := none } } rest).run.scope = some (.single n) from scope]
    have step : exec .resumeSkip s = .next (replyTo q
        ⟨takeEvent (dequeued { s with run := { s.run with holdCause := none } } rest)
          (searchScope (dequeued { s with run := { s.run with holdCause := none } } rest)), .accepted, []⟩) := served
    rw [unfound] at step
    obtain ⟨t, taken, replied, ended⟩ := (takeAnswered_of step).ended rfl
    exact ⟨t, taken, replied, ended⟩
  · have served := exec_served (c := .resumeSkip) head rfl rfl
    rw [answerResumeSkip_held (by exact held), skipCurrent_range (s := dequeued s rest) scope moved stays] at served
    intro u found
    have search : searchScope (dequeued u rest) = found := by
      unfold searchScope
      rw [show (dequeued u rest).run.scope = some (.range a z) from scope]
      rfl
    have step : exec .resumeSkip s = .next (replyTo q ⟨takeEvent (dequeued u rest) (searchScope (dequeued u rest)), .accepted, []⟩) :=
      served
    rw [search] at step
    obtain ⟨ended, started, held⟩ := takeAnswered_of step
    exact ⟨ended, started, held⟩

end Sys2Proof.Machine
end

section
/-! SUPPORT for the statement on RESTART (R186, R187, R193): how the notice queue grows. -/

namespace Sys2Proof.Machine

/-! ### The queue never loses by a notice raised -/

/-- The notice queue has not become shorter, nor outgrown its capacity; an overflow flag stays. -/
structure NoticesGrow (s t : State) : Prop where
  length : s.console.notices.length ≤ t.console.notices.length
  fits : s.console.notices.length ≤ 32 → t.console.notices.length ≤ 32
  overflow : s.console.overflow = true → t.console.overflow = true

namespace NoticesGrow

theorem of_console {s t : State} (h : t.console = s.console) : NoticesGrow s t := by
  exact ⟨Nat.le_of_eq (by rw [h]), fun k => by rw [h]; exact k, fun k => by rw [h]; exact k⟩

theorem refl (s : State) : NoticesGrow s s := ⟨(Nat.le_refl _), id, id⟩

theorem trans {s t u : State} (h : NoticesGrow s t) (k : NoticesGrow t u) : NoticesGrow s u :=
  ⟨Nat.le_trans h.length k.length, k.fits ∘ h.fits, k.overflow ∘ h.overflow⟩

theorem raiseNotice (s : State) (n : Notice) : NoticesGrow s (raiseNotice s n) := by
  refine ⟨?_, fun h => ConsolePort.place_fits _ n h, ConsolePort.place_overflow _ n⟩
  show s.console.notices.length ≤ (s.console.place n).notices.length
  unfold ConsolePort.place
  split
  · rename_i m _
    split
    · rename_i unread
      have erased := eraseFirst_length _ _ unread
      simp only [List.length_append, List.length_take, List.length_drop, List.length_cons, List.length_nil] at erased ⊢
      omega
    · split
      · simp
      · exact (Nat.le_refl _)
  · split
    · simp
    · exact (Nat.le_refl _)

theorem changeMachine (s : State) (m : MachineId) (f : MachineRec → MachineRec) : NoticesGrow s (changeMachine s m f) := by
  unfold Machine.changeMachine
  split
  · exact .of_console rfl
  · exact NoticesGrow.trans (t := s.setMachine m (f (s.machine m))) (.of_console rfl) (.raiseNotice _ _)

theorem foldl {α : Type} {f : State → α → State} (hf : ∀ s a, NoticesGrow s (f s a)) (l : List α) (s : State) :
    NoticesGrow s (l.foldl f s) := foldl_rel refl (fun _ _ _ => trans) hf l s

end NoticesGrow

theorem tryMotion_console (s : State) (m : MachineId) (r : DeckRequest) (v : Int) : (tryMotion s m r v).console = s.console := by
  rcases tryMotion_cases s m r v with same | ⟨p, -, placed⟩
  · rw [same]
  · rw [placed]; rfl

theorem releaseMachine_grow (s : State) (m : MachineId) : NoticesGrow s (releaseMachine s m) := by
  unfold releaseMachine
  split
  · exact NoticesGrow.trans (.of_console (tryMotion_console s m .stop 0)) (.changeMachine _ m _)
  · exact .refl s

theorem restartMachine_grow (s : State) (m : MachineId) : NoticesGrow s (restartMachine s m) := by
  unfold restartMachine
  split
  · exact NoticesGrow.trans (.of_console (tryMotion_console s m .stop 0)) (.changeMachine _ m _)
  · exact .refl s

/-- A notice that is no MACHINE_STATE lengthens the queue while there is room. -/
theorem raiseNotice_lengthens (s : State) {n : Notice} (plain : n.stateMachine? = none) :
    min 32 (s.console.notices.length + 1) ≤ (raiseNotice s n).console.notices.length := by
  show _ ≤ (s.console.place n).notices.length
  unfold ConsolePort.place
  rw [plain]
  dsimp only
  split
  · rw [List.length_append]
    exact Nat.min_le_right _ _
  · rename_i full
    have full : ¬ s.console.notices.length < 32 := full
    show min 32 (s.console.notices.length + 1) ≤ s.console.notices.length
    omega

/-! ### Notices that take no other's place -/

/-- The queue is what it was and the notices raised since, as far as it holds them; the overflow flag is set when it does not. -/
structure NoticesQueued (s t : State) (raised : List Notice) : Prop where
  notices : t.console.notices = (s.console.notices ++ raised).take 32
  overflow : t.console.overflow = true ↔ s.console.overflow = true ∨ 32 < (s.console.notices ++ raised).length

theorem NoticesQueued.start {s : State} (fits : s.console.notices.length ≤ 32) : NoticesQueued s s [] := by
  refine ⟨by rw [List.append_nil, List.take_of_length_le fits], ?_⟩
  rw [List.append_nil]
  exact ⟨.inl, fun h => h.resolve_right (by omega)⟩

theorem NoticesQueued.of_console {s t u : State} {raised : List Notice} (h : NoticesQueued s t raised) (k : u.console = t.console) :
    NoticesQueued s u raised := ⟨by rw [k]; exact h.notices, by rw [k]; exact h.overflow⟩

/-- A notice that no waiting one stands for joins the tail, or is dropped. -/
theorem NoticesQueued.raise {s t : State} {raised : List Notice} (h : NoticesQueued s t raised) {n : Notice}
    (fresh : ∀ m, n.stateMachine? = some m → ∀ k ∈ s.console.notices ++ raised, k.stateMachine? ≠ some m) :
    NoticesQueued s (raiseNotice t n) (raised ++ [n]) := by
  have waiting : ∀ k ∈ t.console.notices, k ∈ s.console.notices ++ raised := fun k hk => by
    rw [h.notices] at hk
    exact List.mem_of_mem_take hk
  have placed := ConsolePort.place_fresh (c := t.console) (n := n) fun m hm o ho => fresh m hm o (waiting o (List.mem_of_mem_drop ho))
  have console : (raiseNotice t n).console = t.console.place n := rfl
  obtain ⟨joins, drops⟩ := placed
  have longer := (List.append_assoc s.console.notices raised [n]).symm
  obtain ⟨notices, overflow⟩ := h
  generalize s.console.notices ++ raised = q at *
  have length : (q ++ [n]).length = q.length + 1 := by simp
  by_cases room : q.length < 32
  · have queue : t.console.notices = q := by rw [notices, List.take_of_length_le (by omega)]
    have joined := joins (by rw [queue]; exact room)
    refine ⟨?_, ?_⟩
    · rw [longer, console, joined, queue, List.take_of_length_le (by omega)]
    · rw [longer, console, joined, length]
      exact overflow.trans (or_congr_right (by omega))
  · have full : 32 ≤ t.console.notices.length := by rw [notices, List.length_take]; omega
    refine ⟨?_, ?_⟩
    · rw [longer, console, drops full, List.take_append_of_le_length (by omega)]
      exact notices
    · rw [longer, console, drops full, length]
      exact ⟨fun _ => .inr (by omega), fun _ => rfl⟩

/-! ### The machines that RESTART still has to bring to rest -/

/-- A machine whose release raises MACHINE_STATE: it is configured, and claimed or not FREE. -/
def restless (s : State) (m : MachineId) : Bool :=
  (s.machine m).configured && ((s.machine m).claimed || (s.machine m).control != .free)

/-- One element fewer passes a test that has changed at that element alone. -/
theorem countP_changed {α : Type} {p q : α → Bool} {a : α} (before : p a = true) (after : q a = false)
    (others : ∀ b, b ≠ a → q b = p b) {l : List α} (once : l.Nodup) (ha : a ∈ l) : l.countP q + 1 = l.countP p := by
  induction l with
  | nil => exact (List.not_mem_nil ha).elim
  | cons b l ih =>
    obtain ⟨first, rest⟩ := List.nodup_cons.1 once
    rw [List.countP_cons, List.countP_cons]
    by_cases hb : b = a
    · subst hb
      have same : l.countP q = l.countP p := List.countP_congr fun c hc => by
        rw [others c fun h => first (h ▸ hc)]
      rw [before, after, same]
      simp
    · have counted := ih rest ((List.mem_cons.1 ha).resolve_left (Ne.symm hb))
      rw [others b hb]
      omega

theorem restless_countP {s t : State} {m : MachineId} (before : restless s m = true) (after : restless t m = false)
    (others : ∀ n, n ≠ m → t.machine n = s.machine n) : Unit8.all.countP (restless t) + 1 = Unit8.all.countP (restless s) :=
  countP_changed before after (fun n hn => by unfold restless; rw [others n hn]) Unit8.all_nodup (Unit8.mem_all m)

/-- While RESTART brings machines to rest: the notices raised for machines, `plain` others, and the machines still restless make
up one number; a restless machine has raised none. `s` is the state before. -/
structure RestartCounts (s t : State) (plain : Nat) : Prop where
  counted : ∃ raised, NoticesQueued s t raised
    ∧ raised.length + Unit8.all.countP (restless t) = Unit8.all.countP (restless s) + plain
    ∧ ∀ m, restless t m = true → ∀ k ∈ raised, k.stateMachine? ≠ some m
  claims : ∀ m, (t.machine m).claimed = true → (t.machine m).configured = true

/-- A change of the control state or the claim raises one notice, for its machine. -/
theorem changeMachine_raises {s : State} {m : MachineId} {f : MachineRec → MachineRec}
    (changes : ¬ ((f (s.machine m)).control = (s.machine m).control ∧ (f (s.machine m)).claimed = (s.machine m).claimed)) :
    ∃ n : Notice, n.stateMachine? = some m
      ∧ Machine.changeMachine s m f = Machine.raiseNotice (s.setMachine m (f (s.machine m))) n :=
  ⟨machineStateNotice (s.setMachine m (f (s.machine m))) m, rfl, if_neg changes⟩

/-- The release of a configured machine raises its MACHINE_STATE exactly when it was restless. -/
theorem RestartCounts.released {s t : State} {plain : Nat} (h : RestartCounts s t plain)
    (fresh : ∀ k ∈ s.console.notices, k.stateMachine? = none) (m : MachineId) (configured : (t.machine m).configured = true) :
    RestartCounts s (Machine.changeMachine (tryStop t m) m MachineRec.released) plain := by
  obtain ⟨⟨raised, queued, counted, unraised⟩, claims⟩ := h
  have record := changeMachine_machine (tryStop t m) m MachineRec.released
  have others (n : MachineId) (hn : n ≠ m) : (Machine.changeMachine (tryStop t m) m MachineRec.released).machine n = t.machine n := by
    rw [changeMachine_machine_other _ _ hn]
    exact (tryMotion_others t m .stop 0 n hn).2
  have stopped : (tryStop t m).machine m = { t.machine m with lastSpeed := ((tryStop t m).machine m).lastSpeed } :=
    tryMotion_record t m .stop 0
  have console : (tryStop t m).console = t.console := tryMotion_console t m .stop 0
  have rests : restless (Machine.changeMachine (tryStop t m) m MachineRec.released) m = false := by
    unfold restless
    rw [record]
    exact Bool.and_false _
  have claims' (n : MachineId) (hc : ((Machine.changeMachine (tryStop t m) m MachineRec.released).machine n).claimed = true) :
      ((Machine.changeMachine (tryStop t m) m MachineRec.released).machine n).configured = true := by
    by_cases hn : n = m
    · rw [hn, record] at hc
      cases hc
    · rw [others n hn] at hc ⊢
      exact claims n hc
  cases due : restless t m with
  | false =>
    have still : (t.machine m).claimed = false ∧ (t.machine m).control = .free := by
      unfold restless at due
      rw [configured] at due
      simpa using due
    have quiet : Machine.changeMachine (tryStop t m) m MachineRec.released
        = (tryStop t m).setMachine m ((tryStop t m).machine m).released :=
      changeMachine_quiet _ _ _ (by rw [stopped]; exact still.2.symm) (by rw [stopped]; exact still.1.symm)
    have same : restless (Machine.changeMachine (tryStop t m) m MachineRec.released) = restless t := by
      funext n
      by_cases hn : n = m
      · rw [hn, rests, due]
      · unfold restless
        rw [others n hn]
    refine ⟨⟨raised, queued.of_console ?_, by rw [same]; exact counted, by rw [same]; exact unraised⟩, claims'⟩
    rw [quiet]
    exact console
  | true =>
    have due' : ¬ ((t.machine m).claimed = false ∧ (t.machine m).control = .free) := fun ⟨unclaimed, free⟩ => by
      unfold restless at due
      rw [unclaimed, free] at due
      simp at due
    obtain ⟨notice, own, raises⟩ := changeMachine_raises (s := tryStop t m) (m := m) (f := MachineRec.released) (by
      rw [stopped]
      exact fun ⟨control, claimed⟩ => due' ⟨claimed.symm, control.symm⟩)
    have counts := restless_countP due rests others
    refine ⟨⟨raised ++ [notice], ?_, ?_, fun n hn k hk => ?_⟩, claims'⟩
    · rw [raises]
      refine NoticesQueued.raise (t := (tryStop t m).setMachine m ((tryStop t m).machine m).released)
        (queued.of_console console) fun n hn k hk => ?_
      rw [own] at hn
      cases hn
      rcases List.mem_append.1 hk with hk | hk
      · rw [fresh k hk]; simp
      · exact unraised m due k hk
    · rw [List.length_append, List.length_singleton]
      omega
    · have apart : n ≠ m := fun h => by rw [h, rests] at hn; cases hn
      have still : restless t n = true := by
        unfold restless at hn ⊢
        rw [← others n apart]
        exact hn
      rcases List.mem_append.1 hk with hk | hk
      · exact unraised n still k hk
      · rw [List.mem_singleton.1 hk, own]
        exact fun h => apart (Option.some.inj h).symm

theorem RestartCounts.release {s t : State} {plain : Nat} (h : RestartCounts s t plain)
    (fresh : ∀ k ∈ s.console.notices, k.stateMachine? = none) (m : MachineId) : RestartCounts s (releaseMachine t m) plain := by
  unfold releaseMachine
  split
  · rename_i claimed
    exact h.released fresh m (h.claims m claimed)
  · exact h

theorem RestartCounts.restart {s t : State} {plain : Nat} (h : RestartCounts s t plain)
    (fresh : ∀ k ∈ s.console.notices, k.stateMachine? = none) (m : MachineId) : RestartCounts s (restartMachine t m) plain := by
  unfold restartMachine
  split
  · rename_i configured
    exact h.released fresh m configured
  · exact h

theorem RestartCounts.foldl {s : State} {plain : Nat} {f : State → MachineId → State}
    (turn : ∀ t m, RestartCounts s t plain → RestartCounts s (f t m) plain) (ms : List MachineId) {t : State}
    (h : RestartCounts s t plain) : RestartCounts s (ms.foldl f t) plain := by
  induction ms generalizing t with
  | nil => exact h
  | cons m ms ih => exact ih (turn t m h)

/-- A notice that is no MACHINE_STATE is one more of the others. -/
theorem RestartCounts.raise {s t : State} {plain : Nat} (h : RestartCounts s t plain) {n : Notice} (plainly : n.stateMachine? = none) :
    RestartCounts s (Machine.raiseNotice t n) (plain + 1) := by
  obtain ⟨⟨raised, queued, counted, unraised⟩, claims⟩ := h
  refine ⟨⟨raised ++ [n], queued.raise (fun m hm => by rw [plainly] at hm; cases hm), ?_, fun m hm k hk => ?_⟩, claims⟩
  · rw [List.length_append, List.length_singleton]
    have same : restless (Machine.raiseNotice t n) = restless t := rfl
    rw [same]
    omega
  · rcases List.mem_append.1 hk with hk | hk
    · exact unraised m hm k hk
    · rw [List.mem_singleton.1 hk, plainly]
      simp

/-- A step that touches neither the notices nor the machines. -/
theorem RestartCounts.of_eq {s t u : State} {plain : Nat} (h : RestartCounts s t plain) (console : u.console = t.console)
    (machines : u.machines = t.machines) : RestartCounts s u plain := by
  obtain ⟨⟨raised, queued, counted, unraised⟩, claims⟩ := h
  have machine (m : MachineId) : u.machine m = t.machine m := congrArg (fun b => Bank.get b m) machines
  have same : restless u = restless t := by
    funext m
    unfold restless
    rw [machine]
  exact ⟨⟨raised, queued.of_console console, by rw [same]; exact counted, by rw [same]; exact unraised⟩,
    fun m => by rw [machine]; exact claims m⟩

end Sys2Proof.Machine
end

section
/-! SUPPORT for the statement on RESTART (R91, R118): the ports and the machines. -/

namespace Sys2Proof.Machine

/-! ### The ports -/

/-- What stands at a machine's port ahead of the STOP of RESTART: the EDIT OFF of the recorder for the tracks in edit. -/
def restartAhead (s : State) (m : MachineId) : List QueuedRequest :=
  if s.recorder = some m ∧ s.run.editSet.isEmpty = false then [editOffRequest s] else []

/-- A port in the course of RESTART: no exchange, no errors, and in the queue of an ONLINE port the EDIT OFF ahead and the STOP
behind it, if it has been placed. -/
structure PortRestarts (s : State) (m : MachineId) (p : Port) : Prop where
  link : p.link = s.link m
  exchange : p.exchange = none
  errors : p.errors = 0
  down : s.link m ≠ .online → p.queue = []
  online : s.link m = .online → p.queue = restartAhead s m ∨ p.queue = restartAhead s m ++ [⟨.stop, none⟩]

theorem restartAhead_still (s : State) (m : MachineId) : (restartAhead s m).any (fun x => x.request.isMotion) = false := by
  unfold restartAhead
  split <;> rfl

theorem restartAhead_short (s : State) (m : MachineId) : (restartAhead s m).length ≤ 1 := by
  unfold restartAhead
  split <;> simp

theorem Port.placeMotion_idle {p q : Port} {r : DeckRequest} (placed : p.placeMotion r = .ok q) (idle : p.exchange = none) :
    q.exchange = none := by
  rw [Port.placeMotion_online (Port.placeMotion_spec placed).1] at placed
  split at placed
  · cases Except.ok.inj placed
    split
    · show p.offLine.exchange = none
      unfold Port.offLine
      rw [idle]
      rfl
    · exact idle
  · split at placed
    · cases Except.ok.inj placed
      exact idle
    · cases placed

theorem motionQueue_restarts {s : State} {m : MachineId} {q : List QueuedRequest}
    (h : q = restartAhead s m ∨ q = restartAhead s m ++ [⟨.stop, none⟩]) :
    motionQueue q .stop = restartAhead s m ++ [⟨.stop, none⟩] := by
  have first : motionQueue (restartAhead s m) .stop = restartAhead s m ++ [⟨.stop, none⟩] := by
    unfold motionQueue
    rw [restartAhead_still]
    rfl
  rcases h with h | h
  · rw [h, first]
  · rw [h, ← first, motionQueue_again rfl]

/-- A STOP placed in the course of RESTART. -/
theorem PortRestarts.stop {s t : State} {m n : MachineId} (h : PortRestarts s n (t.port n)) :
    PortRestarts s n ((tryStop t m).port n) := by
  by_cases hn : n = m
  · subst hn
    rcases tryMotion_cases t n .stop 0 with same | ⟨p, hp, placed⟩
    · unfold tryStop
      rw [same]
      exact h
    · have port : (tryStop t n).port n = p := by unfold tryStop; rw [placed]; simp
      obtain ⟨online, queue, frame⟩ := Port.placeMotion_spec hp
      rw [port]
      refine ⟨by rw [frame]; exact h.link, Port.placeMotion_idle hp h.exchange, by rw [frame]; exact h.errors, fun down => ?_,
        fun up => .inr (by rw [queue]; exact motionQueue_restarts (h.online up))⟩
      exact absurd (h.link.symm.trans online) down
  · rw [tryStop, (tryMotion_others t m .stop 0 n hn).1]
    exact h

/-- An ONLINE port takes the STOP of RESTART. -/
theorem PortRestarts.stopped {s t : State} {m : MachineId} (h : PortRestarts s m (t.port m)) (online : s.link m = .online) :
    ((tryStop t m).port m).queue = restartAhead s m ++ [⟨.stop, none⟩] ∧ ((tryStop t m).machine m).lastSpeed = some 0 := by
  have takes : TakesMotion t m := by
    refine ⟨h.link.trans online, ?_⟩
    rcases h.online online with queue | queue
    · refine .inr ?_
      rw [queue]
      have := restartAhead_short s m
      show _ < 4
      omega
    · refine .inl ?_
      rw [queue, List.any_append]
      exact Bool.or_true _
  obtain ⟨queue, speed⟩ := (tryMotion_port t m .stop 0).1 takes
  exact ⟨queue.trans (motionQueue_restarts (h.online online)), speed⟩

theorem PortRestarts.changed {s t : State} {m n : MachineId} {f : MachineRec → MachineRec} (h : PortRestarts s n (t.port n)) :
    PortRestarts s n ((changeMachine t m f).port n) := by
  rw [changeMachine_port]
  exact h

theorem PortRestarts.released {s t : State} {m n : MachineId} (h : PortRestarts s n (t.port n)) :
    PortRestarts s n ((releaseMachine t m).port n) := by
  unfold releaseMachine
  split
  · exact h.stop.changed
  · exact h

theorem PortRestarts.restarted {s t : State} {m n : MachineId} (h : PortRestarts s n (t.port n)) :
    PortRestarts s n ((restartMachine t m).port n) := by
  unfold restartMachine
  split
  · exact h.stop.changed
  · exact h

theorem PortRestarts.foldl {s : State} {n : MachineId} {f : State → MachineId → State}
    (turn : ∀ t m, PortRestarts s n (t.port n) → PortRestarts s n ((f t m).port n)) (ms : List MachineId) {t : State}
    (h : PortRestarts s n (t.port n)) : PortRestarts s n ((ms.foldl f t).port n) := by
  induction ms generalizing t with
  | nil => exact h
  | cons m ms ih => exact ih (turn t m h)

/-! ### The EDIT OFF of RESTART -/

theorem restartPorts_port (s : State) (m : MachineId) : (restartPorts s).port m = (s.port m).restarted := Bank.get_map ..

theorem restartPorts_restarts {s : State} {m : MachineId} (nothing : restartAhead s m = []) :
    PortRestarts s m ((restartPorts s).port m) := by
  rw [restartPorts_port]
  exact ⟨rfl, rfl, rfl, fun _ => rfl, fun _ => .inl nothing.symm⟩

theorem Port.restarted_placeAhead {p : Port} (online : p.link = .online) (q : QueuedRequest) :
    p.restarted.placeAhead q = .ok ({ p.restarted with queue := [q] }, none) := by
  rw [Port.placeAhead_online (p := p.restarted) online]
  exact if_pos (show ([] : List QueuedRequest).length < 4 by decide)

/-- What RESTART's EDIT OFF leaves. -/
structure EditOffRestarts (s t : State) : Prop where
  frame : t = { editSetCleared s with ports := t.ports }
  ports : ∀ m, PortRestarts s m (t.port m)

/-- No port takes the EDIT OFF. -/
theorem editOffRestarts_none {s : State} (nothing : ∀ m, s.link m = .online → restartAhead s m = []) :
    EditOffRestarts s (editSetCleared (restartPorts s)) := by
  refine ⟨rfl, fun m => ?_⟩
  show PortRestarts s m ((restartPorts s).port m)
  rw [restartPorts_port]
  exact ⟨rfl, rfl, rfl, fun _ => rfl, fun online => .inl (nothing m online).symm⟩

/-- With every queue empty the EDIT OFF discards nothing: only the recorder's port and the tracks in edit are changed. -/
theorem holdEditOff_restarts (s : State) : EditOffRestarts s (holdEditOff (restartPorts s)) := by
  unfold holdEditOff
  split
  · rename_i empty
    have nothing (m : MachineId) : restartAhead s m = [] := if_neg fun ⟨_, tracks⟩ => by
      rw [show s.run.editSet.isEmpty = true from empty] at tracks
      cases tracks
    rw [← editSetCleared_of_isEmpty (s := restartPorts s) empty]
    exact editOffRestarts_none fun m _ => nothing m
  · rename_i tracks
    dsimp only
    split
    · rename_i unset
      exact editOffRestarts_none fun m _ => if_neg fun ⟨recorder, _⟩ => by cases (show s.recorder = none from unset).symm.trans recorder
    · rename_i rec recorder
      have recorder : s.recorder = some rec := recorder
      have other {m : MachineId} (hm : m ≠ rec) : restartAhead s m = [] := if_neg fun ⟨named, _⟩ => by
        rw [recorder] at named
        exact hm (Option.some.inj named).symm
      have ahead : restartAhead s rec = [editOffRequest s] := if_pos ⟨recorder, Bool.not_eq_true _ ▸ tracks⟩
      by_cases online : s.link rec = .online
      · have placed : ((restartPorts s).port rec).placeAhead (editOffRequest (restartPorts s))
            = .ok ({ (s.port rec).restarted with queue := [editOffRequest s] }, none) := by
          rw [restartPorts_port]
          exact Port.restarted_placeAhead online _
        rw [placed]
        dsimp only
        refine ⟨rfl, fun m => ?_⟩
        by_cases hm : m = rec
        · subst hm
          rw [State.setPort_port]
          exact ⟨rfl, rfl, rfl, fun down => absurd online down, fun _ => .inl ahead.symm⟩
        · rw [State.setPort_port_other _ _ hm]
          exact restartPorts_restarts (other hm)
      · obtain ⟨e, refused⟩ : ∃ e, linkRefusal (s.link rec) = some e := by
          cases link : s.link rec with
          | online => exact absurd link online
          | absent => exact ⟨_, rfl⟩
          | offline => exact ⟨_, rfl⟩
          | localMode => exact ⟨_, rfl⟩
        have refused' : linkRefusal ((restartPorts s).port rec).link = some e := by rw [restartPorts_port]; exact refused
        rw [(Port.place_refused refused' .stop (editOffRequest (restartPorts s))).2.2]
        refine editOffRestarts_none fun m up => ?_
        by_cases hm : m = rec
        · exact absurd (hm ▸ up) online
        · exact other hm

end Sys2Proof.Machine
end

section
/-! The statement on RESTART (R91, R118, R143, R166, R174, R192, R193). -/

namespace Sys2Proof.Machine

/-! ### The blocks' work in its order (R192) -/

/-- The state when the machines of the run have been released. -/
def restartReleased (s : State) : State := releaseAll (holdEditOff (restartPorts s))

theorem restartReleased_frame (s : State) :
    restartReleased s = { editSetCleared s with
      ports := (restartReleased s).ports, machines := (restartReleased s).machines, console := (restartReleased s).console } := by
  have frame := (releaseAll_machinesOnly (holdEditOff (restartPorts s))).1
  have placed := (holdEditOff_restarts s).frame
  unfold restartReleased
  generalize releaseAll (holdEditOff (restartPorts s)) = t at *
  rw [placed] at frame
  exact frame

/-- The state when the Run Controller has ended the run. -/
def restartEnded (s : State) : State := restartRunEnd (restartStore (restartRunStart (restartPorts s)))

theorem restartBlocks_eq (s : State) : restartBlocks s = restartEffects (restartMachines (restartEnded s)) := rfl

theorem restartRunStart_eq (s : State) :
    restartRunStart (restartPorts s) = quietLines (discardCues (stopClock (restartReleased s))) := rfl

/-- The run record after RESTART. -/
def RunRecord.restarted (r : RunRecord) : RunRecord :=
  { ({ r with editSet := TrackSet.none } : RunRecord).eventCleared with
    phase := .idle, current := none, inForce := none, cueingCount := 0, holdCause := none, holdPending := none }

theorem restartEnded_frame (s : State) :
    restartEnded s = { s with
      timeline := { s.timeline with clock := none }, store := (reopenRunning s).store
      ports := (restartReleased s).ports, machines := (restartReleased s).machines, run := s.run.restarted
      cues := { s.cues with lines := (s.cues.lines.map CueLine.discarded).map CueLine.quiet, cueSet := none }
      console := (restartEnded s).console } := by
  have frame := restartReleased_frame s
  have stored := (restartStore_spec (restartRunStart (restartPorts s))).2
  rw [restartRunStart_eq] at stored
  have ended : restartEnded s = restartRunEnd (restartStore (quietLines (discardCues (stopClock (restartReleased s))))) := rfl
  rw [ended]
  generalize restartStore (quietLines (discardCues (stopClock (restartReleased s)))) = t at *
  generalize restartReleased s = v at *
  rw [stored, frame]
  rfl

theorem restartMachine_only (s : State) (m : MachineId) : MachinesOnly s (restartMachine s m) := by
  unfold restartMachine
  split
  · exact (tryMotion_machinesOnly s m .stop 0).trans (changeMachine_machinesOnly _ m _)
  · exact .refl s

theorem restartMachine_others (s : State) (m : MachineId) : OthersKept s (restartMachine s m) m := by
  unfold restartMachine
  split
  · intro n hn
    rw [changeMachine_port, changeMachine_machine_other _ _ hn]
    exact tryMotion_others s m .stop 0 n hn
  · exact fun _ _ => ⟨rfl, rfl⟩

theorem restartMachine_held (s : State) (m : MachineId) : RecordsHeld s (restartMachine s m) := by
  unfold restartMachine
  split
  · exact (tryMotion_held s m .stop 0).trans (changeMachine_held ⟨rfl, rfl, rfl, rfl, rfl, .inr rfl, .inr rfl, .inr rfl⟩)
  · exact .refl s

/-- What RESTART leaves in the blocks. -/
structure BlocksRestarted (s t : State) : Prop where
  frame : t = { s with
    timeline := { s.timeline with clock := none }, store := (reopenRunning s).store, ports := t.ports, machines := t.machines
    run := s.run.restarted, effects := { s.effects with programme := none, stepper := none, freeze := false }
    cues := { s.cues with lines := (s.cues.lines.map CueLine.discarded).map CueLine.quiet, cueSet := none }
    console := t.console }
  link : OnlyNotices s t
  ports : ∀ m, PortRestarts s m (t.port m)
  held : RecordsHeld s t
  configured : ∀ m, (t.machine m).configured = (s.machine m).configured
  params : ∀ m, (t.machine m).params = (s.machine m).params

theorem restartReleased_ports (s : State) (m : MachineId) : PortRestarts s m ((restartReleased s).port m) :=
  .foldl (fun _ _ h => h.released) _ ((holdEditOff_restarts s).ports m)

theorem restartEnded_ports (s : State) (m : MachineId) : PortRestarts s m ((restartEnded s).port m) := by
  have ports : (restartEnded s).ports = (restartReleased s).ports := (congrArg State.ports (restartEnded_frame s)).trans rfl
  have port : (restartEnded s).port m = (restartReleased s).port m := congrArg (fun b => Bank.get b m) ports
  rw [port]
  exact restartReleased_ports s m

theorem restartBlocks_restarted (s : State) : BlocksRestarted s (restartBlocks s) := by
  have step := restartBlocks_step s
  have ended := restartEnded_frame s
  have only : MachinesOnly (restartEnded s) (restartMachines (restartEnded s)) := .foldl restartMachine_only _ _
  refine ⟨?_, step.link, fun m => ?_, ?_, step.configured, step.params⟩
  · have frame := only.1
    rw [restartBlocks_eq]
    generalize restartMachines (restartEnded s) = t at *
    rw [ended] at frame
    exact congrArg restartEffects frame
  · rw [restartBlocks_eq]
    exact PortRestarts.foldl (fun _ _ h => h.restarted) _ (restartEnded_ports s m)
  · rw [restartBlocks_eq]
    have machines : (holdEditOff (restartPorts s)).machines = s.machines :=
      (congrArg State.machines (holdEditOff_restarts s).frame).trans rfl
    have released : RecordsHeld s (restartReleased s) := (RecordsHeld.of_machines machines).trans (releaseAll_held _)
    have until' : RecordsHeld (restartReleased s) (restartEnded s) := .of_machines ((congrArg State.machines ended).trans rfl)
    have restarted : RecordsHeld (restartEnded s) (restartMachines (restartEnded s)) := .foldl restartMachine_held _ _
    exact (released.trans until').trans (restarted.trans (.of_machines rfl))

/-! ### The machines at rest (R118) -/

/-- A configured machine and its port after its turn. -/
structure MachineRestarted (s t : State) (m : MachineId) : Prop where
  free : (t.machine m).control = .free ∧ (t.machine m).claimed = false ∧ (t.machine m).leader = .noLeader
    ∧ (t.machine m).locate = none
  stopped : s.link m = .online →
    (t.port m).queue = restartAhead s m ++ [⟨.stop, none⟩] ∧ (t.machine m).lastSpeed = some 0

theorem restartMachine_restarted {s t : State} {m : MachineId} (configured : (t.machine m).configured = true)
    (port : PortRestarts s m (t.port m)) : MachineRestarted s (restartMachine t m) m := by
  unfold restartMachine
  rw [if_pos configured]
  refine ⟨?_, fun online => ?_⟩
  · rw [changeMachine_machine]
    exact ⟨rfl, rfl, rfl, rfl⟩
  · rw [changeMachine_port, changeMachine_machine]
    exact port.stopped online

theorem restartMachines_restarted {s t : State} {m : MachineId} (configured : (t.machine m).configured = true)
    (port : PortRestarts s m (t.port m)) : MachineRestarted s (restartMachines t) m := by
  refine foldl_at (g := restartMachine) (P := fun u => (u.machine m).configured = true ∧ PortRestarts s m (u.port m))
    (Q := fun u => MachineRestarted s u m) (fun u n hn h => ?_) (fun u h => restartMachine_restarted h.1 h.2) (fun u n hn h => ?_)
    Unit8.all_nodup (Unit8.mem_all m) ⟨configured, port⟩
  · obtain ⟨port, machine⟩ := restartMachine_others u n m (Ne.symm hn)
    rw [port, machine]
    exact h
  · obtain ⟨port, machine⟩ := restartMachine_others u n m (Ne.symm hn)
    obtain ⟨free, stopped⟩ := h
    exact ⟨by rw [machine]; exact free, by rw [port, machine]; exact stopped⟩

theorem restartEnded_configured (s : State) (m : MachineId) :
    ((restartEnded s).machine m).configured = (s.machine m).configured := by
  have step : BlockStep s (restartEnded s) := BlockStep.trans (.of_machines (restartPorts_step s))
    ((restartRunStart_step _).trans ((restartStore_step _).trans (restartRunEnd_step _)))
  exact step.configured m

theorem restartBlocks_machine {s : State} {m : MachineId} (configured : (s.machine m).configured = true) :
    MachineRestarted s (restartBlocks s) m := by
  rw [restartBlocks_eq]
  have restarted := restartMachines_restarted ((restartEnded_configured s m).trans configured) (restartEnded_ports s m)
  exact ⟨restarted.free, restarted.stopped⟩

/-! ### The notices of the work (R193) -/

theorem restartReleased_grow (s : State) : NoticesGrow s (restartReleased s) :=
  NoticesGrow.trans (.of_console ((congrArg State.console (holdEditOff_restarts s).frame).trans rfl)) (.foldl releaseMachine_grow _ _)

theorem restartStore_grow (s : State) : NoticesGrow s (restartStore s) := by
  unfold restartStore
  exact NoticesGrow.trans (t := reopenRunning s) (.of_console rfl)
    (.foldl (f := fun t (e : Event) => raiseNotice t (eventStateNotice e.leftIncomplete)) (fun t e => .raiseNotice t _) _ _)

/-- A RUNNING event's EVENT_STATE is one notice at least. -/
theorem restartStore_lengthens {s : State} (running : ∃ e ∈ s.store.events, e.state = .running) :
    min 32 (s.console.notices.length + 1) ≤ (restartStore s).console.notices.length := by
  obtain ⟨e, he, state⟩ := running
  have mem : e ∈ s.store.events.filter Event.isRunning := List.mem_filter.2 ⟨he, beq_iff_eq.2 state⟩
  unfold restartStore
  cases found : s.store.events.filter Event.isRunning with
  | nil => rw [found] at mem; cases mem
  | cons x xs =>
    rw [List.foldl_cons]
    have first := raiseNotice_lengthens (reopenRunning s) (n := eventStateNotice x.leftIncomplete) rfl
    exact Nat.le_trans first (NoticesGrow.foldl
      (f := fun t (e : Event) => raiseNotice t (eventStateNotice e.leftIncomplete)) (fun t e => .raiseNotice t _) xs _).length

theorem restartEnded_console (s : State) :
    (restartEnded s).console = (restartStore (restartRunStart (restartPorts s))).console := rfl

theorem restartRunStart_store (s : State) : (restartRunStart (restartPorts s)).store = s.store := by
  rw [restartRunStart_eq]
  exact (congrArg State.store (restartReleased_frame s)).trans rfl

theorem restartRunStart_console (s : State) :
    (restartRunStart (restartPorts s)).console = (restartReleased s).console := rfl

theorem restartBlocks_grow (s : State) :
    NoticesGrow s (restartBlocks s)
      ∧ ((∃ e ∈ s.store.events, e.state = .running) →
          min 32 (s.console.notices.length + 1) ≤ (restartBlocks s).console.notices.length) := by
  have start : NoticesGrow s (restartRunStart (restartPorts s)) :=
    (restartReleased_grow s).trans (.of_console (restartRunStart_console s))
  have last : NoticesGrow (restartStore (restartRunStart (restartPorts s))) (restartBlocks s) := by
    rw [restartBlocks_eq]
    exact NoticesGrow.trans (t := restartEnded s) (.of_console (restartEnded_console s))
      (NoticesGrow.trans (t := restartMachines (restartEnded s)) (.foldl restartMachine_grow _ _) (.of_console rfl))
  refine ⟨start.trans ((restartStore_grow _).trans last), fun running => ?_⟩
  have one := restartStore_lengthens (s := restartRunStart (restartPorts s)) (by rw [restartRunStart_store]; exact running)
  have := start.length
  have := last.length
  omega

/-- The RUNNING events raise one notice each. -/
theorem RestartCounts.reopened {s t : State} {plain : Nat} (es : List Event) (h : RestartCounts s t plain) :
    RestartCounts s (es.foldl (fun u e => raiseNotice u (eventStateNotice e.leftIncomplete)) t) (plain + es.length) := by
  induction es generalizing t plain with
  | nil => exact h
  | cons e es ih =>
    have next := ih (h.raise (n := eventStateNotice e.leftIncomplete) rfl)
    rw [List.length_cons, Nat.add_comm es.length 1, ← Nat.add_assoc]
    exact next

theorem restartBlocks_counts {s : State} (fits : s.console.notices.length ≤ 32)
    (plain : ∀ k ∈ s.console.notices, k.stateMachine? = none)
    (claims : ∀ m, (s.machine m).claimed = true → (s.machine m).configured = true) :
    RestartCounts s (restartBlocks s) (s.store.events.countP (fun e => e.state == .running)) := by
  have start : RestartCounts s s 0 := ⟨⟨[], .start fits, by simp, fun _ _ _ h => by cases h⟩, claims⟩
  have placed : RestartCounts s (holdEditOff (restartPorts s)) 0 :=
    start.of_eq ((congrArg State.console (holdEditOff_restarts s).frame).trans rfl)
      ((congrArg State.machines (holdEditOff_restarts s).frame).trans rfl)
  have released : RestartCounts s (restartReleased s) 0 := .foldl (fun t m h => h.release plain m) _ placed
  have begun : RestartCounts s (reopenRunning (restartRunStart (restartPorts s))) 0 := released.of_eq rfl rfl
  have reopened : RestartCounts s (restartStore (restartRunStart (restartPorts s)))
      (0 + ((restartRunStart (restartPorts s)).store.events.filter Event.isRunning).length) := begun.reopened _
  rw [restartRunStart_store, Nat.zero_add, ← List.countP_eq_length_filter] at reopened
  have ended : RestartCounts s (restartEnded s) _ := reopened.of_eq rfl rfl
  have restarted : RestartCounts s (restartMachines (restartEnded s)) _ := .foldl (fun t m h => h.restart plain m) _ ended
  rw [restartBlocks_eq]
  exact restarted.of_eq rfl rfl

/-- The notices that RESTART discards, and whether one was dropped. -/
theorem restartBlocks_notices {s : State} (fits : s.console.notices.length ≤ 32)
    (plain : ∀ k ∈ s.console.notices, k.stateMachine? = none)
    (claims : ∀ m, (s.machine m).claimed = true → (s.machine m).configured = true) :
    (restartBlocks s).console.notices.length = min 32 (s.console.notices.length
        + s.store.events.countP (fun e => e.state == .running) + Unit8.all.countP (restless s))
      ∧ ((restartBlocks s).console.overflow = true ↔ s.console.overflow = true ∨ 32 < s.console.notices.length
        + s.store.events.countP (fun e => e.state == .running) + Unit8.all.countP (restless s)) := by
  obtain ⟨⟨raised, queued, counted, -⟩, -⟩ := restartBlocks_counts fits plain claims
  have still : Unit8.all.countP (restless (restartBlocks s)) = 0 := List.countP_eq_zero.2 fun m _ => by
    unfold restless
    cases configured : (s.machine m).configured with
    | false =>
      rw [(restartBlocks_restarted s).configured, configured]
      simp
    | true =>
      obtain ⟨control, claimed, -⟩ := (restartBlocks_machine configured).free
      rw [control, claimed]
      simp
  have length : (s.console.notices ++ raised).length = s.console.notices.length
      + s.store.events.countP (fun e => e.state == .running) + Unit8.all.countP (restless s) := by
    rw [List.length_append]
    omega
  rw [queued.notices, queued.overflow, List.length_take, length]
  exact ⟨rfl, Iff.rfl⟩

/-! ### The request -/

theorem exec_restart_served {s : State} {q : RequestMessage} {rest : List RequestMessage} (head : s.console.inbound = q :: rest)
    (form : formRequest q = some .restart) : exec .restart s = .next (replyTo q (answerRestart (dequeued s rest))) := by
  show execRestart s = _
  unfold execRestart
  rw [head]
  exact if_pos form

theorem reopenRunning_store (s : State) : (reopenRunning s).store = { s.store with
    events := s.store.events.map (fun e => if e.state = .running then e.leftIncomplete else e) } := by
  have same : (fun e : Event => if e.isRunning then e.leftIncomplete else e)
      = fun e => if e.state = .running then e.leftIncomplete else e := by
    funext e
    unfold Event.isRunning
    simp only [beq_iff_eq]
  unfold reopenRunning
  rw [same]

/-- The reply to RESTART stands alone in the emptied queues; the rest of the state is what the blocks' work leaves. -/
structure RestartReplied (s t : State) (q : RequestMessage) (rest : List RequestMessage) : Prop where
  emptied : t.console.inbound = [] ∧ t.console.notices = [] ∧ t.console.overrun = false ∧ t.console.overflow = false
  reply : t.console.replies = [⟨q.code, q.tag, .ok, u16 rest.length ++ u16 s.console.replies.length
    ++ u16 (restartBlocks (dequeued s rest)).console.notices.length ++ flagByte s.console.overrun
    ++ flagByte (restartBlocks (dequeued s rest)).console.overflow⟩]
  blocks : t = { restartBlocks (dequeued s rest) with console := t.console }

theorem replyTo_restart (s : State) (q : RequestMessage) (rest : List RequestMessage) :
    RestartReplied s (replyTo q (answerRestart (dequeued s rest))) q rest := by
  have link := (restartBlocks_restarted (dequeued s rest)).link
  have inbound : (restartBlocks (dequeued s rest)).console.inbound = rest := link.inbound
  have replies : (restartBlocks (dequeued s rest)).console.replies = s.console.replies := link.replies
  have overrun : (restartBlocks (dequeued s rest)).console.overrun = s.console.overrun := link.overrun
  have data : restartData (restartBlocks (dequeued s rest)) = u16 rest.length ++ u16 s.console.replies.length
      ++ u16 (restartBlocks (dequeued s rest)).console.notices.length ++ flagByte s.console.overrun
      ++ flagByte (restartBlocks (dequeued s rest)).console.overflow := by
    unfold restartData
    rw [inbound, replies, overrun]
  unfold answerRestart
  rw [data]
  exact ⟨⟨rfl, rfl, rfl, rfl⟩, rfl, rfl⟩

/-- Settles O22: the blocks' work, its notices, and the reply on the emptied queues. -/
theorem restartBringsSuiteToRest : Obligations.RestartBringsSuiteToRest := by
  unfold Obligations.RestartBringsSuiteToRest
  intro s q rest head form
  have replied := replyTo_restart s q rest
  have done := restartBlocks_restarted (dequeued s rest)
  obtain ⟨grow, lengthens⟩ := restartBlocks_grow (dequeued s rest)
  have counts := restartBlocks_notices (s := dequeued s rest)
  have rested {m : MachineId} (configured : (s.machine m).configured = true) :
      MachineRestarted (dequeued s rest) (restartBlocks (dequeued s rest)) m := restartBlocks_machine configured
  refine ⟨_, exec_restart_served head form, ?_⟩
  obtain ⟨emptied, reply, blocks⟩ := replied
  generalize replyTo q (answerRestart (dequeued s rest)) = t at *
  generalize restartBlocks (dequeued s rest) = u at *
  obtain ⟨empty, noNotices, overrun, overflow⟩ := emptied
  have frame := done.frame
  have run : t.run = s.run.restarted := (congrArg State.run blocks).trans ((congrArg State.run frame).trans rfl)
  have cues : t.cues = { s.cues with lines := (s.cues.lines.map CueLine.discarded).map CueLine.quiet, cueSet := none } :=
    (congrArg State.cues blocks).trans ((congrArg State.cues frame).trans rfl)
  have machine (m : MachineId) : t.machine m = u.machine m :=
    congrArg (fun b => Bank.get b m) ((congrArg State.machines blocks).trans rfl)
  have port (m : MachineId) : t.port m = u.port m := congrArg (fun b => Bank.get b m) ((congrArg State.ports blocks).trans rfl)
  have ahead (m : MachineId) : restartAhead (dequeued s rest) m
      = if s.recorder = some m ∧ s.run.editSet.isEmpty = false then [⟨.editOff s.run.editSet, s.run.current⟩] else [] := rfl
  refine ⟨⟨empty, noNotices, overrun, overflow, _, _, reply, grow.overflow, fun fits => ⟨grow.length, grow.fits fits, lengthens,
    fun plain claims => counts fits plain claims⟩⟩, ?_, ?_, ?_, fun m configured => ?_, fun m => ?_, fun m configured online => ?_,
    fun m configured down => ?_, fun g => ?_, ?_, ?_, ?_, ?_, ?_, ?_⟩
  · rw [run]; exact ⟨rfl, rfl, rfl, rfl, rfl, rfl, rfl, rfl, rfl, rfl, rfl, rfl, rfl⟩
  · exact (congrArg State.store blocks).trans ((congrArg State.store frame).trans (reopenRunning_store s))
  · exact (congrArg State.timeline blocks).trans ((congrArg State.timeline frame).trans rfl)
  · obtain ⟨control, claimed, leader, locate⟩ := (rested configured).free
    have held := done.held m
    rw [machine]
    exact ⟨control, claimed, leader, locate, (done.configured m).trans configured, done.params m, held.markIn, held.markOut,
      held.position⟩
  · unfold State.link
    rw [port]
    exact ⟨(done.ports m).link, (done.ports m).exchange, (done.ports m).errors⟩
  · obtain ⟨queue, speed⟩ := (rested configured).stopped online
    rw [port, machine, queue, ahead]
    exact ⟨rfl, speed⟩
  · rw [port]
    exact (done.ports m).down down
  · unfold State.cueLine
    rw [cues]
    show (Bank.get ((s.cues.lines.map CueLine.discarded).map CueLine.quiet) g).atRest
      ∧ (Bank.get ((s.cues.lines.map CueLine.discarded).map CueLine.quiet) g).polarity = _
    rw [Bank.get_map, Bank.get_map]
    exact ⟨⟨rfl, rfl, rfl, rfl, rfl⟩, rfl⟩
  · rw [cues]
  · rw [cues]
  · exact (congrArg State.effects blocks).trans ((congrArg State.effects frame).trans rfl)
  · exact (congrArg State.recorder blocks).trans ((congrArg State.recorder frame).trans rfl)
  · exact (congrArg State.runParams blocks).trans ((congrArg State.runParams frame).trans rfl)
  · exact (congrArg State.now blocks).trans ((congrArg State.now frame).trans rfl)

end Sys2Proof.Machine
end
